-- ==== Sys2Proof/Word.lean ====
section
/-! DEFINITION. The word types of the device and the masks over the 32 threads of a wave (R5, R11). -/

namespace Sys2Proof

/-- One element of a vector register, and every special register (R11, R23). -/
abbrev Word := BitVec 32

/-- One byte of memory. -/
abbrev Byte := BitVec 8

/-- A 64-bit address (R77, R91). -/
abbrev Addr := BitVec 64

/-- One bit for each of the 32 logical threads of a wave (R18). -/
abbrev Mask := BitVec 32

/-- A logical thread, or a physical element, of a wave. -/
abbrev Lane := Fin 32

/-- The 32 physical elements of one vector register. -/
abbrev Row := Vector Word 32

/-- Data held under numeric keys: sorted by key, no key twice, no entry equal to the default of its key. -/
abbrev Sparse (α : Type) := List (Nat × α)

/-- Bit `t` of a mask. -/
def Mask.has (m : Mask) (t : Lane) : Bool := m.getLsbD t.val

/-- The mask of the threads for which `p` holds. -/
def Mask.ofPred (p : Lane → Bool) : Mask :=
  BitVec.ofFnLE p

/-- The threads of a mask in ascending order. -/
def Mask.lanes (m : Mask) : List Lane := (List.finRange 32).filter (fun t => Mask.has m t)

/-- The number of threads of a mask. -/
def Mask.count (m : Mask) : Nat := (Mask.lanes m).length

/-- The lowest thread of a mask; 0 for an empty one (R91 `lowest`). -/
def Mask.lowest (m : Mask) : Lane := (Mask.lanes m).headD 0

/-- The mask of threads `0 … n - 1`. -/
def Mask.below (n : Nat) : Mask := Mask.ofPred (fun t => decide (t.val < n))

end Sys2Proof
end

