-- ==== Sys2Proof/Syntax.lean ====
section
/-! DEFINITION. The operations and events of spec/opcode_table.json as one inductive, and the kinds of their operands. -/

namespace Sys2Proof

/-- Rounding modes, RND (R47, R76). -/
inductive Rnd | rne | rtz | rdn | rup
  deriving DecidableEq, Repr

/-- M-class access sizes (R77). -/
inductive MSize | b | h | w | d | q
  deriving DecidableEq, Repr

/-- Memory orders (R77). -/
inductive Order | rlx | acq | rel | ar
  deriving DecidableEq, Repr

/-- Scopes (R78). -/
inductive Scope | wave | block | cluster | device | system | memside
  deriving DecidableEq, Repr

/-- Cache hints (R77). -/
inductive Hint | normal | stream | keep | noL1
  deriving DecidableEq, Repr

/-- Address spaces of an M-class word (R77). -/
inductive Space | global | scratch | window
  deriving DecidableEq, Repr

/-- Atomic operations (R79). -/
inductive Aop
  | add | and | or | xor | minS | maxS | minU | maxU | xchg | incw | decw | fadd | fmin | fmax
  deriving DecidableEq, Repr

/-- Reduction operations of GRED, GSCAN and fused barriers (R141). -/
inductive GOp | add | and | or | xor | minS | maxS | minU | maxU | fadd | fmin | fmax
  deriving DecidableEq, Repr

/-- Integer comparisons (R117). -/
inductive ICond | eq | ne | lt | le | gt | ge
  deriving DecidableEq, Repr

/-- FP32 comparisons (R122). -/
inductive FCond | eq | ne | lt | le | gt | ge | un | ord
  deriving DecidableEq, Repr

/-- Combination of a comparison with a predicate (R117). -/
inductive Comb | none | and | or | xor
  deriving DecidableEq, Repr

/-- Type codes of CVT (R126). -/
inductive NumType | s8 | s16 | s32 | s64 | u8 | u16 | u32 | u64 | f32 | bf16 | f16
  deriving DecidableEq, Repr

/-- SX block formats of BXPK and BXUPK (R127). -/
inductive SxFmt | sx2 | sx4 | sx7
  deriving DecidableEq, Repr

/-- Segment widths, WID (R130). -/
inductive Wid | w32 | w16 | w8 | w4 | w2
  deriving DecidableEq, Repr

/-- Barrier levels (R177). -/
inductive Level | wave | block | cluster | grid
  deriving DecidableEq, Repr

/-- Operations of CPYMC (R191). -/
inductive McOp | st | fadd | add
  deriving DecidableEq, Repr

/-- Pair opcodes (R85). -/
inductive PairOp
  | mov | iadd | isub | imul | iminS | imaxS | iminU | imaxU | and | or | xor | shl | shr | sar
  | popc | clz | fadd | fsub | fmul | fmin | fmax | pkaddBf | pkmulBf
  deriving DecidableEq, Repr

/-- The number of a vector register, v0–v255. -/
abbrev Reg := BitVec 8

/-- The number of a predicate, p0–p7. -/
abbrev PredNo := BitVec 3

/-- The guard of a word: predicate GP, negated when GN is set (R72, R73). -/
structure Guard where
  gn : Bool
  gp : PredNo
  deriving DecidableEq, Repr

/-- The unconditional guard: GP = 7, GN = 0 (R73). -/
def Guard.always : Guard := ⟨false, 7⟩

/-- The mod13 sub-fields of a load or store (R77). -/
structure MemMod where
  size  : MSize
  sx    : Bool
  order : Order
  scope : Scope
  hint  : Hint
  space : Space
  deriving DecidableEq, Repr

/-- The A-class sub-fields of an atomic (R79); `wide` is size d, `scratch` is SP = 1. -/
structure AtomMod where
  aop     : Aop
  order   : Order
  scope   : Scope
  wide    : Bool
  scratch : Bool
  deriving DecidableEq, Repr

/-- The fused reduction of a BAR.sync (R179). -/
structure Fuse where
  op  : GOp
  rnd : Rnd
  deriving DecidableEq, Repr

/-- The second operand of a pair-word slot: a register, or an 8-bit immediate (R83). -/
inductive PairSrc
  | reg (vs : Reg)
  | imm (imm8 : BitVec 8)
  deriving DecidableEq, Repr

/-- The guard and operands of a pair-word slot (R83). -/
structure PairArgs where
  g  : Guard
  vd : Reg
  src : PairSrc
  deriving DecidableEq, Repr

/-- A whole pair-word slot: its opcode and its operands (R83). -/
structure PairSlot where
  op   : PairOp
  args : PairArgs
  deriving DecidableEq, Repr

/-- The completion fields of a copy command (R185): channel, and the block barrier counted against, if any. -/
structure CopyMod where
  ch  : BitVec 3
  bar : Option (BitVec 4)
  deriving DecidableEq, Repr

/-- A path slot of a wave of a resident work-group (R238). -/
structure SlotRef where
  ctx  : Nat
  wave : Nat
  slot : Nat
  deriving DecidableEq, Repr

/-- The engine classes that acknowledge a pre-emption stop (R336). -/
inductive EngineClass | waves | matrix | copy | braid | bins | barriers
  deriving DecidableEq, Repr

/-- A self-test unit (R416): its class and index, at a core, cluster or device place. -/
structure UnitRef where
  core  : Nat
  cls   : BitVec 4
  index : BitVec 12
  deriving DecidableEq, Repr

/-- Who answers at an SPDM responder: the device, or the TDI of a partition (R372). -/
inductive Responder
  | device
  | tdi (part : BitVec 5)
  deriving DecidableEq, Repr

/-- Where uncorrectable data is met (R303). -/
inductive BadPlace
  | register (ctx wave reg elem : Nat)
  | predicate (ctx wave pred thread : Nat)
  | line (addr : Nat)
  | scratch (ctx offset : Nat)
  /-- a byte of a gang's part of its cluster's scratchpad -/
  | share (gang offset : Nat)
  | element (core tile elem : Nat)
  | anchor (core tile : Nat)
  deriving DecidableEq, Repr

/-- An inbound or outbound fabric operation (R379, R381, R382); data marked bad are poisoned (R303). -/
inductive FabricOp
  | load (size : Nat)
  | store (size : Nat) (data : BitVec 128) (bytes : BitVec 16) (bad : Bool)
  | atomic (aop : Aop) (wide : Bool) (data : BitVec 64)
  | cas (wide : Bool) (cmp new : BitVec 64)
  | red (aop : Aop) (wide : Bool) (data : BitVec 64)
  | contribution (cid rank index : Nat) (data : List (Option Word))
  /-- a result of a COLL stored into another rank's DST, by the byte of DST it starts at (R395; log entry 32) -/
  | result (cid off size : Nat) (data : BitVec 128) (bad : Bool)
  deriving DecidableEq, Repr

/-- A requester pair: device, partition and context (R383). -/
structure PairId where
  qdev  : BitVec 12
  qpart : BitVec 5
  ctxid : Word
  deriving DecidableEq, Repr

/-- What seals a frame between two devices (R384, R392): the key index and the frame counter of its nonce, its send time in fabric time,
and whether its tag verifies. -/
structure Seal where
  index   : Nat
  counter : Nat
  sentAt  : Nat
  genuine : Bool
  deriving DecidableEq, Repr

/-- An owner's question for the watermark of a context, in its frame (R383). -/
structure WatermarkAsk where
  dev   : BitVec 12
  ctx   : Nat
  frame : Seal
  deriving DecidableEq, Repr

/-- A requester's watermark in its frame (R383). -/
structure WatermarkTold where
  wm    : Word
  frame : Seal
  deriving DecidableEq, Repr

/-- A sprayed message and those of its five slices that have not come (R393). -/
structure SlicesMissing where
  msg     : Nat
  missing : List Nat
  deriving DecidableEq, Repr

/-- Whose cast record is read, and by which session of which TDI, if a tenant reads it (R424). -/
structure CastReading where
  cluster : Nat
  session : Option (BitVec 5 × Nat)
  deriving DecidableEq, Repr

/-- One lane of an inbound request at a fabric port (R379, R381, R383, R387). -/
structure FabricReq where
  tpart  : BitVec 5
  pair   : PairId
  serial : Option Word
  wm     : Word
  epoch  : Word
  addr   : BitVec 40
  op     : FabricOp
  frame  : Seal
  deriving DecidableEq, Repr

/-- The answers of an owner port (R382, R383, R387). -/
inductive FabricAnswer
  | done (value : BitVec 128) (bad : Bool)
  | expired | busy | epoch | denied
  deriving DecidableEq, Repr

/-- A reply as it reaches the requester (R380, R387): the context, the operation's number, the answer and the owner's EPOCH. -/
structure FabricRep where
  ctx    : Nat
  op     : Nat
  answer : FabricAnswer
  epoch  : Word
  frame  : Seal
  deriving DecidableEq, Repr

/-- What the operator sets for a partition in CONFIG_UNLOCKED (R371, R378). -/
structure PartConfig where
  clusters  : BitVec 32
  asidFirst : BitVec 16
  asidCount : BitVec 16
  keys      : BitVec 64
  primary   : BitVec 6
  root      : Addr
  grantPriv : Bool
  grantTest : Bool
  legacy    : BitVec 2
  attrs     : List (Addr × Bool × Bool)
  peers     : List (BitVec 8 × BitVec 64)
  deriving DecidableEq, Repr

/-- The pages of registers software outside the device writes (R368, R432). -/
inductive RegPage
  | partition (part : BitVec 5)
  | management
  deriving DecidableEq, Repr

/-- Firmware components (R430, R431). -/
inductive Component | ecinzel | control | cluster
  deriving DecidableEq, Repr

/-- A firmware image: its component, security version, whether its signature is valid, and the die or cluster it is for (R429–R431). -/
structure FwImage where
  component : Component
  version   : Nat
  signed    : Bool
  place     : Nat
  deriving DecidableEq, Repr

/-- What a boot server gives: whether the bundle's signature is valid, and the security versions of the Ecinzel, control-core
and cluster firmware (R429). -/
structure Bundle where
  signed  : Bool
  ecinzel : Nat
  control : Nat
  cluster : Nat
  deriving DecidableEq, Repr

/-- The causes of a fatal error (R425). -/
inductive FatalCause | controlState | spliceLanes | temperature | firmwareCheck
  deriving DecidableEq, Repr

/-- Every row of spec/opcode_table.json: first the instruction words, then the events of the machine's other agents. -/
inductive Instr
  -- integer and logic (R102–R119)
  | nop (g : Guard)
  | mov (g : Guard) (vd va : Reg) (d : Bool)
  | movi (g : Guard) (vd : Reg) (imm : Word)
  | iadd (g : Guard) (vd va vb : Reg) (sat u : Bool)
  | iaddImmediate (g : Guard) (vd va : Reg) (imm : Word)
  | isub (g : Guard) (vd va vb : Reg) (sat u : Bool)
  | iaddc (g : Guard) (vd va vb : Reg) (pc : PredNo) (ci : Bool)
  | imul (g : Guard) (vd va vb : Reg) (sat u : Bool)
  | imulh (g : Guard) (vd va vb : Reg) (u : Bool)
  | imad (g : Guard) (vd va vb vc : Reg) (wide sat u : Bool)
  | imin (g : Guard) (vd va vb : Reg) (u : Bool)
  | imax (g : Guard) (vd va vb : Reg) (u : Bool)
  | iabs (g : Guard) (vd va : Reg) (sat : Bool)
  | and (g : Guard) (vd va vb : Reg)
  | andImmediate (g : Guard) (vd va : Reg) (imm : Word)
  | or (g : Guard) (vd va vb : Reg)
  | orImmediate (g : Guard) (vd va : Reg) (imm : Word)
  | xor (g : Guard) (vd va vb : Reg)
  | xorImmediate (g : Guard) (vd va : Reg) (imm : Word)
  | blut (g : Guard) (vd va vb vc : Reg) (lut : BitVec 8)
  | shl (g : Guard) (vd va vb : Reg) (cl : Bool)
  | shr (g : Guard) (vd va vb : Reg) (cl : Bool)
  | sar (g : Guard) (vd va vb : Reg) (cl : Bool)
  | fshl (g : Guard) (vd va vb vc : Reg) (cl : Bool)
  | fshr (g : Guard) (vd va vb vc : Reg) (cl : Bool)
  | bfe (g : Guard) (vd va vb : Reg) (u : Bool)
  | bfi (g : Guard) (vd va vb vc : Reg)
  | popc (g : Guard) (vd va : Reg)
  | clz (g : Guard) (vd va : Reg)
  | brev (g : Guard) (vd va : Reg)
  | icmp (g : Guard) (pd : PredNo) (va vb : Reg) (pc : PredNo) (cond : ICond) (comb : Comb) (d u : Bool)
  | sel (g : Guard) (vd va vb : Reg) (pc : PredNo)
  | bperm (g : Guard) (vd va vb vc : Reg)
  -- floating point (R120–R127)
  | fadd (g : Guard) (vd va vb : Reg) (rnd : Rnd)
  | fsub (g : Guard) (vd va vb : Reg) (rnd : Rnd)
  | fmul (g : Guard) (vd va vb : Reg) (rnd : Rnd)
  | ffma (g : Guard) (vd va vb vc : Reg) (rnd : Rnd)
  | fmin (g : Guard) (vd va vb : Reg)
  | fmax (g : Guard) (vd va vb : Reg)
  | fcmp (g : Guard) (pd : PredNo) (va vb : Reg) (pc : PredNo) (cond : FCond) (comb : Comb)
  | frcp (g : Guard) (vd va : Reg) (rnd : Rnd)
  | frsq (g : Guard) (vd va : Reg) (rnd : Rnd)
  | fsqrt (g : Guard) (vd va : Reg) (rnd : Rnd)
  | fexp2 (g : Guard) (vd va : Reg) (rnd : Rnd)
  | flog2 (g : Guard) (vd va : Reg) (rnd : Rnd)
  | fclass (g : Guard) (vd va : Reg)
  | pkadd (g : Guard) (vd va vb : Reg) (h : Bool) (rnd : Rnd)
  | pkmul (g : Guard) (vd va vb : Reg) (h : Bool) (rnd : Rnd)
  | pkfma (g : Guard) (vd va vb vc : Reg) (h : Bool) (rnd : Rnd)
  | cvt (g : Guard) (vd va : Reg) (rnd : Rnd) (hs : Bool) (dst src : NumType) (sat : Bool)
  | bxpk (g : Guard) (vd va : Reg) (fmt : SxFmt) (rnd : Rnd)
  | bxupk (g : Guard) (vd va : Reg) (fmt : SxFmt)
  -- pair words, named by their slot X; slot Y is an operand (R83, R128)
  | pairMov (x : PairArgs) (y : PairSlot)
  | pairIadd (x : PairArgs) (y : PairSlot)
  | pairIsub (x : PairArgs) (y : PairSlot)
  | pairImul (x : PairArgs) (y : PairSlot)
  | pairIminS (x : PairArgs) (y : PairSlot)
  | pairImaxS (x : PairArgs) (y : PairSlot)
  | pairIminU (x : PairArgs) (y : PairSlot)
  | pairImaxU (x : PairArgs) (y : PairSlot)
  | pairAnd (x : PairArgs) (y : PairSlot)
  | pairOr (x : PairArgs) (y : PairSlot)
  | pairXor (x : PairArgs) (y : PairSlot)
  | pairShl (x : PairArgs) (y : PairSlot)
  | pairShr (x : PairArgs) (y : PairSlot)
  | pairSar (x : PairArgs) (y : PairSlot)
  | pairPopc (x : PairArgs) (y : PairSlot)
  | pairClz (x : PairArgs) (y : PairSlot)
  | pairFadd (x : PairArgs) (y : PairSlot)
  | pairFsub (x : PairArgs) (y : PairSlot)
  | pairFmul (x : PairArgs) (y : PairSlot)
  | pairFmin (x : PairArgs) (y : PairSlot)
  | pairFmax (x : PairArgs) (y : PairSlot)
  | pairPkaddBf (x : PairArgs) (y : PairSlot)
  | pairPkmulBf (x : PairArgs) (y : PairSlot)
  -- lay and lane (R134–R144)
  | shfl (g : Guard) (vd vs vb : Reg) (wid : Wid) (z : Bool)
  | shflx (g : Guard) (vd vs : Reg) (wid : Wid) (k : BitVec 5)
  | shflup (g : Guard) (vd vs : Reg) (wid : Wid) (k : BitVec 5)
  | shfldn (g : Guard) (vd vs : Reg) (wid : Wid) (k : BitVec 5)
  | bcast (g : Guard) (vd vs : Reg) (wid : Wid) (k : BitVec 5)
  | lxpose (g : Guard) (vd vs : Reg) (rows : BitVec 3)
  | compact (g : Guard) (vd vs : Reg) (pc : PredNo)
  | expand (g : Guard) (vd vs : Reg) (pc : PredNo)
  | relay (g : Guard) (vd : Reg)
  | layrd (g : Guard) (vd va : Reg) (b : Bool)
  | laywr (g : Guard) (vd va : Reg)
  | voteBallot (g : Guard) (vd : Reg) (pc : PredNo)
  | voteAny (g : Guard) (pd pc : PredNo)
  | voteAll (g : Guard) (pd pc : PredNo)
  | voteEq (g : Guard) (pd pc : PredNo)
  | gred (g : Guard) (vd va : Reg) (op : GOp) (wid : Wid) (rnd : Rnd)
  | gscan (g : Guard) (vd va : Reg) (op : GOp) (wid : Wid) (rnd : Rnd) (exc : Bool)
  | matchv (g : Guard) (vd va : Reg) (all d : Bool)
  -- control (R147–R155)
  | bra (g : Guard) (tgt join : BitVec 24)
  | braAny (g : Guard) (tgt : BitVec 24)
  | brx (g : Guard) (va : Reg)
  | join
  | call (g : Guard) (tgt : BitVec 24)
  | ret (g : Guard)
  | exit (g : Guard)
  | yield (g : Guard)
  | setexP (g : Guard) (pc : PredNo)
  | setexV (g : Guard) (va : Reg)
  | setexRst
  | getex (g : Guard) (vd : Reg) (h : Bool)
  | plop (g : Guard) (pd pa pb pc : PredNo) (lut : BitVec 8)
  | p2v (g : Guard) (vd : Reg)
  | v2p (g : Guard) (va : Reg) (mask : BitVec 7)
  | spawn (g : Guard) (va vb vc : Reg)
  -- memory (R162–R167)
  | ld (g : Guard) (vd va : Reg) (m : MemMod) (off : BitVec 12)
  | st (g : Guard) (vd va : Reg) (m : MemMod) (off : BitVec 12)
  | lds (g : Guard) (vd va : Reg) (m : MemMod) (off : BitVec 12)
  | sts (g : Guard) (vd va : Reg) (m : MemMod) (off : BitVec 12)
  | ldu (g : Guard) (vd va vb : Reg) (m : MemMod) (off : BitVec 12)
  | stu (g : Guard) (vd va vb : Reg) (m : MemMod) (off : BitVec 12)
  | ld2s (g : Guard) (vd va vb : Reg) (m : MemMod) (off : BitVec 12)
  | pref (g : Guard) (va : Reg) (hint : Hint) (off : BitVec 12)
  | cmaintDrop (g : Guard) (va : Reg) (off : BitVec 12)
  | cmaintDropall (g : Guard)
  | cmaintClean (g : Guard) (va : Reg) (off : BitVec 12)
  | cmaintFlush (g : Guard) (va : Reg) (off : BitVec 12)
  -- atomics, fence, memside (R168–R176)
  | atom (g : Guard) (vd va vb : Reg) (a : AtomMod) (off : BitVec 12)
  | red (g : Guard) (va vb : Reg) (a : AtomMod) (off : BitVec 12)
  | cas (g : Guard) (vd va vb : Reg) (a : AtomMod) (off : BitVec 12)
  | fence (g : Guard) (order : Order) (scope : Scope)
  | mscmd (g : Guard) (vd va : Reg) (off : BitVec 12)
  -- barriers (R177–R183)
  | barSync (g : Guard) (vd va : Reg) (level : Level) (index : BitVec 4) (fuse : Option Fuse)
  | barArr (g : Guard) (level : Level) (index : BitVec 4)
  | barWait (g : Guard) (level : Level) (index : BitVec 4)
  | barExp (g : Guard) (va : Reg) (index : BitVec 4)
  | bartx (g : Guard) (va : Reg) (index : BitVec 4) (arr : Bool)
  -- engine commands (R184–R192)
  | cpyLin (g : Guard) (vd va vb : Reg) (c : CopyMod) (ss ds : Bool)
  | cpyTld (g : Guard) (vd va : Reg) (q : BitVec 4) (c : CopyMod)
  | cpyTst (g : Guard) (vd va : Reg) (q : BitVec 4) (c : CopyMod)
  | cpyTred (g : Guard) (vd va : Reg) (q : BitVec 4) (c : CopyMod)
  | publ (g : Guard) (va : Reg)
  | cpywp (g : Guard) (vd : Reg) (ch : BitVec 3)
  | cpywt (g : Guard) (ch : BitVec 3)
  | cpymc (g : Guard) (vd va vb vc : Reg) (op : McOp) (c : CopyMod)
  | coll (g : Guard) (va : Reg) (tag : BitVec 3)
  | collwt (g : Guard) (tag : BitVec 3)
  | wvsel (g : Guard) (va : Reg)
  -- ternary and matrix (R200–R216)
  | trpk (g : Guard) (vd va : Reg)
  | trupk (g : Guard) (vd va : Reg)
  | trspk (g : Guard) (vd va : Reg)
  | trsupk (g : Guard) (vd va : Reg)
  | tld (g : Guard) (vd va vb vc : Reg) (nn : BitVec 4) (nk : BitVec 5) (west : Bool)
  | mma (g : Guard) (vd va vb vc : Reg) (tile : BitVec 2)
  | mmas (g : Guard) (va vb vc : Reg) (kc : BitVec 5) (nt tile : BitVec 2)
  | mmag (g : Guard) (vd va vb vc : Reg) (kc : BitVec 5) (nt tile : BitVec 2)
  | aclr (g : Guard) (vc : Reg) (tile : BitVec 2)
  | adrain (g : Guard) (va : Reg) (q : BitVec 4) (vc : Reg) (add : Bool) (tile : BitVec 2)
  | ard (g : Guard) (vd va vc : Reg) (raw : Bool) (tile : BitVec 2)
  | mfence (g : Guard) (vd : Reg)
  | mwait (g : Guard) (va : Reg)
  | mwaitAll (g : Guard)
  | achk (g : Guard) (vd vc : Reg) (tile : BitVec 2)
  | aflip (g : Guard) (va : Reg) (tile : BitVec 2)
  | qset (g : Guard) (q : BitVec 4) (va : Reg)
  | qget (g : Guard) (vd : Reg) (q : BitVec 4)
  -- system (R217–R230)
  | trap (g : Guard) (code : BitVec 16)
  | bpt (g : Guard) (code : BitVec 16)
  | rtt (g : Guard)
  | rttKill (g : Guard)
  | sysrd (g : Guard) (vd : Reg) (n : BitVec 16)
  | syswr (g : Guard) (va : Reg) (n : BitVec 16)
  | preemptOff (g : Guard)
  | preemptOn (g : Guard)
  | evrec (g : Guard) (va : Reg) (code : BitVec 16)
  | halt (g : Guard)
  | sleep (g : Guard) (n : BitVec 16)
  | icinv (g : Guard) (va : Reg) (all : Bool)
  | genbump (g : Guard) (vd va : Reg)
  | tlbinv (g : Guard) (va : Reg) (asid : BitVec 16) (all : Bool)
  | stest (g : Guard) (vd : Reg) (unit : BitVec 16)
  | lsupd (g : Guard) (vd : Reg) (n : BitVec 16)
  -- events of a core (R227, R236, R243, R248, R270, R293–R308, R359)
  | issue (core part : Nat)
  | starvation (slot : SlotRef)
  | sleepExpiry (slot : SlotRef)
  | binTimerExpiry (core bin : Nat)
  | binLaunch (core bin : Nat)
  | memoryRequestArrival (core req : Nat)
  | effectLeavesCore (core req : Nat)
  | loadDataDelivery (core req : Nat)
  | faultRecord (core entry : Nat)
  | parkedWordGiveUp (core entry : Nat)
  | haltArrival (ctx wave : Nat)
  | siblingStop (ctx wave : Nat)
  | handlerEntry (ctx : Nat)
  | strike (core : Nat)
  | rollbackResume (core : Nat)
  -- the array and the engines (R184, R198, R276, R281–R287, R428)
  | matrixOrderBegin (core : Nat)
  | shadowReady (core : Nat)
  | mmagGroupStart (core : Nat)
  | occupancyEnd (core : Nat)
  | matrixComplete (core : Nat)
  | drainBufferFree (core buf : Nat)
  | batchRetire (ctx wave : Nat)
  | copyChunk (core cmd : Nat)
  | ld2sDelivery (core req : Nat)
  | reservationGrant (cluster : Nat)
  | chargeExpiry (cluster : Nat)
  | arbiterAging (cluster : Nat)
  -- host writes to registers (R324, R360, R362, R368, R425, R432)
  | doorbell (part : BitVec 5) (value : BitVec 64) (trusted : Bool)
  | genreq (part : BitVec 5) (value : BitVec 64) (trusted : Bool)
  | faultdbWrite (part : BitVec 5) (value : BitVec 64) (trusted : Bool)
  | registerWrite (page : RegPage) (offset : Nat) (value : Option (BitVec 64)) (trusted : Bool)
  | pwrlimWrite (value : BitVec 64)
  | testpolWrite (value : BitVec 64)
  | thaw (value : BitVec 64)
  -- the distributor and pre-emption (R224, R305, R327–R338, R388)
  | decisionPoint (part : BitVec 5)
  | gangPlaced (part : BitVec 5) (gang : Nat)
  | priorityAging (launch : Nat)
  | workGroupEnd (ctx : Nat)
  | launchComplete (launch : Nat)
  | graphChildStart (launch child : Nat)
  | engineStopAck (ctx : Nat) (cls : EngineClass)
  | preemptionComplete (part : BitVec 5)
  | preemptBudgetExpiry (ctx : Nat)
  | remoteStopTimeout (ctx : Nat)
  | genBumpComplete (asid : Nat)
  -- the fabric and the braid (R380–R399)
  | fabricRequest (port : Nat) (req : FabricReq)
  | fabricReply (rep : FabricRep)
  | retransmitTimeout (op : Nat)
  | operationAgeExpiry (op : Nat)
  | cleatEntryAge (port : Nat) (pair : PairId) (serial : Word)
  | watermarkQuery (ask : WatermarkAsk) (port : Nat)
  | watermarkAnswer (port : Nat) (pair : PairId) (told : WatermarkTold)
  | cleatAbandon (port : Nat) (pair : PairId) (serial : Word)
  | pairForget (port : Nat) (pair : PairId)
  | flitCrcFail (port lane : Nat)
  | rateStepDown (port : Nat)
  | laneRetrainEnd (port : Nat)
  | rateStepUp (port : Nat)
  | sprayResend (slices : SlicesMissing)
  | braidReady (coll : Nat)
  | collComplete (coll : Nat)
  | hostBar4Access (part : BitVec 5) (addr : Nat) (write : Option (List Byte)) (size : Nat) (trusted : Bool)
  -- what is due once nothing stands in its way (R274, R326, R417, R419)
  | registerBankRetire (core part bank : Nat)
  | spareRowEntry (core row : Nat)
  | inFieldTestStart (cluster : Nat)
  | ctxidReuseDelayEnd (ctxid : Nat)
  -- SPDM, TDISP and partitions (R371–R374)
  | getVersion (who : Responder)
  | getCapabilities (who : Responder)
  | negotiateAlgorithms (who : Responder)
  | getDigests (who : Responder)
  | getCertificate (who : Responder)
  | challenge (who : Responder) (nonce : Nat)
  | getMeasurements (who : Responder) (index : Nat)
  | keyExchange (who : Responder) (requester : Nat)
  | finish (who : Responder) (session : Nat)
  | heartbeat (who : Responder) (session : Nat)
  | keyUpdate (who : Responder) (session : Nat)
  | endSession (who : Responder) (session : Nat)
  | tdiLock (part : BitVec 5) (session : Nat)
  | tdiStart (part : BitVec 5) (session : Nat)
  | stopInterface (part : BitVec 5) (session : Nat)
  | partitionConfig (part : BitVec 5) (cfg : PartConfig)
  | partitionReset (part : BitVec 5)
  | partitionResetEnd (part : BitVec 5)
  -- reliability, power, boot and firmware (R307, R326, R392, R413–R432)
  | correctedError (unit : UnitRef)
  | selfTestEnd (unit : UnitRef)
  | inFieldTestDue (cluster : Nat)
  | inFieldTestEnd (cluster : Nat)
  | supplySag (cluster : Nat) (deep : Bool)
  | sagRecoveryStep (cluster : Nat)
  | ratioChange (core : Nat) (ratio : BitVec 4)
  | thermalStep (core : Nat)
  | limitHalve (cluster : Nat)
  | fatalError (cause : FatalCause)
  | coldReset (mramOk : Bool) (bundles : List Bundle)
  | warmReset (mramOk : Bool) (bundles : List Bundle)
  | castRecordRead (reading : CastReading)
  | firmwareStage (image : FwImage)
  | firmwareApply (cluster : Nat)
  | firmwareCommit (component : Component) (version : Nat) (signed : Bool)
  | supplyRecovery (cluster : Nat)
  | limitRestore (cluster : Nat)
  | uncorrectableError (unit : UnitRef) (place : Option BadPlace)
  | debugAgentResume (ctx : Nat) (kill : Bool)
  | linkKeyUpdate (part : Option (BitVec 5)) (window : BitVec 12) (outbound : Bool)
  deriving DecidableEq, Repr

end Sys2Proof
end

