-- ==== Sys2Proof/WellFormed.lean ====
section
/-! DEFINITION. Which instruction terms are instructions: the decode rules on operand fields that need no machine state
(R14's role count, privilege and special-register numbers are checked against the wave, in Machine/Issue.lean). -/

namespace Sys2Proof

/-- Any guard but the reserved pattern 0b1111 (R73). -/
def Guard.wf (g : Guard) : Bool := !(g.gn && g.gp == 7)

/-- The low register of a pair (R15, R75). -/
def Reg.pair (r : Reg) : Bool := r.toNat % 2 == 0

/-- The low register of a quad (R75). -/
def Reg.quad (r : Reg) : Bool := r.toNat % 4 == 0

/-- Bytes of an access size (R77). -/
def MSize.bytes : MSize → Nat
  | .b => 1 | .h => 2 | .w => 4 | .d => 8 | .q => 16

/-- Registers a data operand of this size occupies (R162). -/
def MSize.regs : MSize → Nat
  | .b => 1 | .h => 1 | .w => 1 | .d => 2 | .q => 4

/-- A data operand of the size lies at an allowed register (R75). -/
def Reg.holds (r : Reg) (z : MSize) : Bool := r.toNat % z.regs == 0

/-- Threads of a segment (R130). -/
def Wid.size : Wid → Nat
  | .w32 => 32 | .w16 => 16 | .w8 => 8 | .w4 => 4 | .w2 => 2

/-- Barriers of a level (R177). -/
def Level.count : Level → Nat
  | .wave => 4 | .block => 16 | .cluster => 8 | .grid => 4

/-- RND must be 0 for every reduction but fadd (R141). -/
def GOp.rndOk (op : GOp) (r : Rnd) : Bool := r == .rne || op == .fadd

/-- mod13 values that every M-class word must have (R77, R87). -/
def MemMod.wf (m : MemMod) : Bool :=
  (!m.sx || m.size == .b || m.size == .h) && (m.hint == .normal || m.space == .global)

/-- The address operand is a pair in global and window space, one register in scratch space (R77). -/
def MemMod.addrOk (m : MemMod) (va : Reg) : Bool := m.space == .scratch || va.pair

/-- A-class values that every atomic must have (R79, R157): no memside scope, scratch only below cluster scope, FP only at size w. -/
def AtomMod.wf (a : AtomMod) : Bool :=
  a.scope != .memside && (!a.scratch || a.scope == .wave || a.scope == .block) &&
    (!a.wide || !(a.aop == .fadd || a.aop == .fmin || a.aop == .fmax))

/-- The address operand of an atomic (R79). -/
def AtomMod.addrOk (a : AtomMod) (va : Reg) : Bool := a.scratch || va.pair

/-- A floating-point pair opcode, which may not take an immediate (R84). -/
def PairOp.isFp : PairOp → Bool
  | .fadd | .fsub | .fmul | .fmin | .fmax | .pkaddBf | .pkmulBf => true
  | .mov | .iadd | .isub | .imul | .iminS | .imaxS | .iminU | .imaxU | .and | .or | .xor | .shl | .shr | .sar
  | .popc | .clz => false

/-- The banks a slot names: its destination, and its source when that is a register (R86). -/
def PairArgs.banks (a : PairArgs) : List Nat :=
  a.vd.toNat % 4 :: (match a.src with | .reg vs => [vs.toNat % 4] | .imm _ => [])

/-- Slot guard and immediate rules (R84, R87). -/
def PairSlot.wf (p : PairSlot) : Bool :=
  p.args.g.wf && (!p.op.isFp || match p.args.src with | .reg _ => true | .imm _ => false)

/-- The bank rules of a pair word (R86). -/
def pairBanksOk (x y : PairArgs) : Bool :=
  x.vd.toNat % 4 != y.vd.toNat % 4 &&
    (List.range 4).all (fun b => (x.banks ++ y.banks).count b ≤ 2)

/-- A legal pair word (R84, R86). -/
def pairWf (op : PairOp) (x : PairArgs) (y : PairSlot) : Bool :=
  PairSlot.wf ⟨op, x⟩ && y.wf && pairBanksOk x y.args

/-- Bits of a CVT type (R126). -/
def NumType.bits : NumType → Nat
  | .s8 | .u8 => 8
  | .s16 | .u16 | .bf16 | .f16 => 16
  | .s32 | .u32 | .f32 => 32
  | .s64 | .u64 => 64

/-- An integer type of CVT (R126). -/
def NumType.isInt : NumType → Bool
  | .s8 | .s16 | .s32 | .s64 | .u8 | .u16 | .u32 | .u64 => true
  | .f32 | .bf16 | .f16 => false

/-- The type combinations and sub-fields of CVT (R126). -/
def cvtOk (vd va : Reg) (hs : Bool) (dst src : NumType) (sat : Bool) : Bool :=
  (!hs || src.bits == 16) && (!sat || (dst.isInt && src.isInt)) && (dst != src || src == .f32) &&
    (src.bits != 64 || va.pair) && (dst.bits != 64 || vd.pair)

/-- The units STEST names (R229, R416). -/
def testUnitOk (u : BitVec 16) : Bool :=
  match u.toNat / 4096 with
  | 0 => decide (u.toNat % 4096 < 32)
  | 1 => decide (u.toNat % 4096 < 16)
  | 2 => decide (u.toNat % 4096 < 66)
  | 3 => decide (u.toNat % 4096 < 48) || (decide (64 ≤ u.toNat % 4096) && decide (u.toNat % 4096 < 128))
  | _ => false

/-- The operand fields of the term are those of an instruction; an event's term is always well formed. -/
def Instr.wf : Instr → Bool
  | .nop _ => true
  | .mov g vd va d => g.wf && (!d || (vd.pair && va.pair))
  | .movi g _ _ => g.wf
  | .iadd g _ _ _ sat u => g.wf && (!u || sat)
  | .iaddImmediate g _ _ _ => g.wf
  | .isub g _ _ _ sat u => g.wf && (!u || sat)
  | .iaddc g _ _ _ _ _ => g.wf
  | .imul g _ _ _ sat u => g.wf && (!u || sat)
  | .imulh g _ _ _ _ => g.wf
  | .imad g vd _ _ vc wide sat u => g.wf && (if wide then vd.pair && vc.pair else !u || sat)
  | .imin g _ _ _ _ => g.wf
  | .imax g _ _ _ _ => g.wf
  | .iabs g _ _ _ => g.wf
  | .and g _ _ _ => g.wf
  | .andImmediate g _ _ _ => g.wf
  | .or g _ _ _ => g.wf
  | .orImmediate g _ _ _ => g.wf
  | .xor g _ _ _ => g.wf
  | .xorImmediate g _ _ _ => g.wf
  | .blut g _ _ _ _ _ => g.wf
  | .shl g _ _ _ _ => g.wf
  | .shr g _ _ _ _ => g.wf
  | .sar g _ _ _ _ => g.wf
  | .fshl g _ _ _ _ _ => g.wf
  | .fshr g _ _ _ _ _ => g.wf
  | .bfe g _ _ _ _ => g.wf
  | .bfi g _ _ _ _ => g.wf
  | .popc g _ _ => g.wf
  | .clz g _ _ => g.wf
  | .brev g _ _ => g.wf
  | .icmp g _ va vb pc _ comb d _ => g.wf && (!d || (va.pair && vb.pair)) && (comb != .none || pc == 0)
  | .sel g _ _ _ _ => g.wf
  | .bperm g _ _ _ _ => g.wf
  | .fadd g _ _ _ _ => g.wf
  | .fsub g _ _ _ _ => g.wf
  | .fmul g _ _ _ _ => g.wf
  | .ffma g _ _ _ _ _ => g.wf
  | .fmin g _ _ _ => g.wf
  | .fmax g _ _ _ => g.wf
  | .fcmp g _ _ _ pc _ comb => g.wf && (comb != .none || pc == 0)
  | .frcp g _ _ _ => g.wf
  | .frsq g _ _ _ => g.wf
  | .fsqrt g _ _ _ => g.wf
  | .fexp2 g _ _ _ => g.wf
  | .flog2 g _ _ _ => g.wf
  | .fclass g _ _ => g.wf
  | .pkadd g _ _ _ _ _ => g.wf
  | .pkmul g _ _ _ _ _ => g.wf
  | .pkfma g _ _ _ _ _ _ => g.wf
  | .cvt g vd va _ hs dst src sat => g.wf && cvtOk vd va hs dst src sat
  | .bxpk g _ _ _ _ => g.wf
  | .bxupk g _ _ _ => g.wf
  | .pairMov x y => pairWf .mov x y
  | .pairIadd x y => pairWf .iadd x y
  | .pairIsub x y => pairWf .isub x y
  | .pairImul x y => pairWf .imul x y
  | .pairIminS x y => pairWf .iminS x y
  | .pairImaxS x y => pairWf .imaxS x y
  | .pairIminU x y => pairWf .iminU x y
  | .pairImaxU x y => pairWf .imaxU x y
  | .pairAnd x y => pairWf .and x y
  | .pairOr x y => pairWf .or x y
  | .pairXor x y => pairWf .xor x y
  | .pairShl x y => pairWf .shl x y
  | .pairShr x y => pairWf .shr x y
  | .pairSar x y => pairWf .sar x y
  | .pairPopc x y => pairWf .popc x y
  | .pairClz x y => pairWf .clz x y
  | .pairFadd x y => pairWf .fadd x y
  | .pairFsub x y => pairWf .fsub x y
  | .pairFmul x y => pairWf .fmul x y
  | .pairFmin x y => pairWf .fmin x y
  | .pairFmax x y => pairWf .fmax x y
  | .pairPkaddBf x y => pairWf .pkaddBf x y
  | .pairPkmulBf x y => pairWf .pkmulBf x y
  | .shfl g _ _ _ _ _ => g.wf
  | .shflx g _ _ wid k => g.wf && decide (k.toNat < wid.size)
  | .shflup g _ _ wid k => g.wf && decide (k.toNat < wid.size)
  | .shfldn g _ _ wid k => g.wf && decide (k.toNat < wid.size)
  | .bcast g _ _ wid k => g.wf && decide (k.toNat < wid.size)
  | .lxpose g _ _ rows => g.wf && decide (rows.toNat ≤ 5)
  | .compact g _ _ _ => g.wf
  | .expand g _ _ _ => g.wf
  | .relay g _ => g.wf
  | .layrd g _ _ _ => g.wf
  | .laywr g _ _ => g.wf
  | .voteBallot g _ _ => g.wf
  | .voteAny g _ _ => g.wf
  | .voteAll g _ _ => g.wf
  | .voteEq g _ _ => g.wf
  | .gred g _ _ op _ rnd => g.wf && op.rndOk rnd
  | .gscan g _ _ op _ rnd _ => g.wf && op.rndOk rnd
  | .matchv g _ va _ d => g.wf && (!d || va.pair)
  | .bra g _ _ => g.wf
  | .braAny g _ => g.wf
  | .brx g va => g.wf && va.pair
  | .join => true
  | .call g _ => g.wf
  | .ret g => g.wf
  | .exit g => g.wf
  | .yield g => g.wf
  | .setexP g _ => g.wf
  | .setexV g _ => g.wf
  | .setexRst => true
  | .getex g _ _ => g.wf
  | .plop g _ _ _ _ _ => g.wf
  | .p2v g _ => g.wf
  | .v2p g _ _ => g.wf
  | .spawn g va _ _ => g.wf && va.pair
  | .ld g vd va m _ => g.wf && m.wf && va.pair && vd.holds m.size && m.space != .scratch &&
      (m.order == .rlx || m.order == .acq) &&
      (m.scope != .memside || (m.order == .acq && m.size == .w && m.space == .global))
  | .st g vd va m _ => g.wf && m.wf && va.pair && vd.holds m.size && m.space != .scratch && !m.sx &&
      (m.order == .rlx || m.order == .rel) && m.scope != .memside
  | .lds g vd _ m _ => g.wf && m.wf && vd.holds m.size && m.space == .scratch &&
      (m.order == .rlx || m.order == .acq) && m.scope != .memside
  | .sts g vd _ m _ => g.wf && m.wf && vd.holds m.size && m.space == .scratch && !m.sx &&
      (m.order == .rlx || m.order == .rel) && m.scope != .memside
  | .ldu g vd va _ m _ => g.wf && m.wf && m.addrOk va && vd.quad && m.size == .q && m.space != .window &&
      (m.order == .rlx || m.order == .acq) && m.scope != .memside
  | .stu g vd va _ m _ => g.wf && m.wf && m.addrOk va && vd.quad && m.size == .q && m.space != .window &&
      (m.order == .rlx || m.order == .rel) && m.scope != .memside
  | .ld2s g _ va _ m _ => g.wf && m.wf && va.pair && (m.size == .w || m.size == .d || m.size == .q) && !m.sx &&
      m.order == .rlx && m.scope == .wave && m.space == .global
  | .pref g va _ _ => g.wf && va.pair
  | .cmaintDrop g va _ => g.wf && va.pair
  | .cmaintDropall g => g.wf
  | .cmaintClean g va _ => g.wf && va.pair
  | .cmaintFlush g va _ => g.wf && va.pair
  | .atom g vd va vb a _ => g.wf && a.wf && a.addrOk va && (!a.wide || (vd.pair && vb.pair))
  | .red g va vb a _ => g.wf && a.wf && a.addrOk va && (!a.wide || vb.pair) && (a.order == .rlx || a.order == .rel)
  | .cas g vd va vb a _ => g.wf && a.wf && a.addrOk va && a.aop == .add && (!a.wide || (vd.pair && vb.quad))
  | .fence g order scope => g.wf && order != .rlx && scope != .memside
  | .mscmd g _ va _ => g.wf && va.pair
  | .barSync g vd va level index fuse => g.wf && decide (index.toNat < level.count) &&
      (match fuse with
       | none => vd == 0 && va == 0
       | some f => f.op.rndOk f.rnd)
  | .barArr g level index => g.wf && decide (index.toNat < level.count)
  | .barWait g level index => g.wf && decide (index.toNat < level.count)
  | .barExp g _ index => g.wf && decide (index.toNat < 4)
  | .bartx g _ _ _ => g.wf
  | .cpyLin g vd va _ _ ss ds => g.wf && (ss || va.pair) && (ds || vd.pair)
  | .cpyTld g _ va _ _ => g.wf && va.quad
  | .cpyTst g vd _ _ _ => g.wf && vd.quad
  | .cpyTred g vd _ _ _ => g.wf && vd.quad
  | .publ g va => g.wf && va.pair
  | .cpywp g _ _ => g.wf
  | .cpywt g _ => g.wf
  | .cpymc g _ _ vb _ _ _ => g.wf && vb.pair
  | .coll g va _ => g.wf && va.pair
  | .collwt g _ => g.wf
  | .wvsel g _ => g.wf
  | .trpk g _ _ => g.wf
  | .trupk g _ _ => g.wf
  | .trspk g _ _ => g.wf
  | .trsupk g _ _ => g.wf
  | .tld g vd va _ _ _ _ _ => g.wf && vd.pair && va.pair
  | .mma g _ va _ _ _ => g.wf && va.toNat % 8 == 0
  | .mmas g _ _ _ _ nt tile => g.wf && decide (tile.toNat + nt.toNat ≤ 3)
  | .mmag g _ _ _ _ _ nt tile => g.wf && decide (tile.toNat + nt.toNat ≤ 3)
  | .aclr g _ _ => g.wf
  | .adrain g va _ _ _ _ => g.wf && va.quad
  | .ard g _ _ _ _ _ => g.wf
  | .mfence g _ => g.wf
  | .mwait g _ => g.wf
  | .mwaitAll g => g.wf
  | .achk g _ _ _ => g.wf
  | .aflip g _ _ => g.wf
  | .qset g _ _ => g.wf
  | .qget g _ _ => g.wf
  | .trap g _ => g.wf
  | .bpt g _ => g.wf
  | .rtt g => g.wf
  | .rttKill g => g.wf
  | .sysrd g _ _ => g.wf
  | .syswr g _ _ => g.wf
  | .preemptOff g => g.wf
  | .preemptOn g => g.wf
  | .evrec g _ _ => g.wf
  | .halt g => g.wf
  | .sleep g _ => g.wf
  | .icinv g va all => g.wf && (if all then va == 0 else va.pair)
  | .genbump g _ _ => g.wf
  | .tlbinv g va _ all => g.wf && (if all then va == 0 else va.pair)
  | .stest g _ u => g.wf && testUnitOk u
  | .lsupd g _ n => g.wf && decide (1 ≤ n.toNat)
  | .issue _ _ | .starvation _ | .sleepExpiry _ | .binTimerExpiry _ _ | .binLaunch _ _ | .memoryRequestArrival _ _
  | .loadDataDelivery _ _ | .faultRecord _ _ | .parkedWordGiveUp _ _ | .haltArrival _ _ | .siblingStop _ _
  | .handlerEntry _ | .strike _ | .rollbackResume _ | .matrixOrderBegin _ | .shadowReady _ | .mmagGroupStart _
  | .occupancyEnd _ | .matrixComplete _ | .drainBufferFree _ _ | .batchRetire _ _ | .copyChunk _ _
  | .ld2sDelivery _ _ | .reservationGrant _ | .chargeExpiry _ | .arbiterAging _ | .doorbell _ _ _ | .genreq _ _ _
  | .faultdbWrite _ _ _ | .registerWrite _ _ _ _ | .pwrlimWrite _ | .testpolWrite _ | .thaw _ | .decisionPoint _
  | .gangPlaced _ _ | .priorityAging _ | .workGroupEnd _ | .launchComplete _ | .graphChildStart _ _
  | .engineStopAck _ _ | .preemptionComplete _ | .preemptBudgetExpiry _ | .remoteStopTimeout _ | .genBumpComplete _
  | .fabricRequest _ _ | .fabricReply _ | .retransmitTimeout _ | .operationAgeExpiry _ | .cleatEntryAge _ _ _
  | .watermarkQuery _ _ | .watermarkAnswer _ _ _ | .cleatAbandon _ _ _ | .pairForget _ _ | .flitCrcFail _ _
  | .rateStepDown _ | .laneRetrainEnd _ | .rateStepUp _ | .sprayResend _ | .braidReady _ | .collComplete _
  | .hostBar4Access _ _ _ _ _ | .getVersion _ | .getCapabilities _ | .negotiateAlgorithms _ | .getDigests _
  | .getCertificate _ | .challenge _ _ | .getMeasurements _ _ | .keyExchange _ _ | .finish _ _ | .heartbeat _ _
  | .keyUpdate _ _ | .endSession _ _ | .tdiLock _ _ | .tdiStart _ _ | .stopInterface _ _ | .partitionConfig _ _
  | .partitionReset _ | .partitionResetEnd _ | .correctedError _ | .selfTestEnd _ | .registerBankRetire _ _ _
  | .spareRowEntry _ _ | .inFieldTestDue _ | .inFieldTestStart _ | .inFieldTestEnd _ | .supplySag _ _
  | .sagRecoveryStep _ | .ratioChange _ _ | .thermalStep _ | .limitHalve _ | .fatalError _ | .coldReset _ _ | .warmReset _ _
  | .castRecordRead _ | .firmwareStage _ | .firmwareApply _ | .firmwareCommit _ _ _ | .supplyRecovery _
  | .limitRestore _ | .uncorrectableError _ _ | .debugAgentResume _ _ | .effectLeavesCore _ _ | .linkKeyUpdate _ _ _
  | .ctxidReuseDelayEnd _ => true

/-- The term is an instruction word, not an event of another agent. -/
def Instr.isWord : Instr → Bool
  | .issue _ _ | .starvation _ | .sleepExpiry _ | .binTimerExpiry _ _ | .binLaunch _ _ | .memoryRequestArrival _ _
  | .loadDataDelivery _ _ | .faultRecord _ _ | .parkedWordGiveUp _ _ | .haltArrival _ _ | .siblingStop _ _
  | .handlerEntry _ | .strike _ | .rollbackResume _ | .matrixOrderBegin _ | .shadowReady _ | .mmagGroupStart _
  | .occupancyEnd _ | .matrixComplete _ | .drainBufferFree _ _ | .batchRetire _ _ | .copyChunk _ _
  | .ld2sDelivery _ _ | .reservationGrant _ | .chargeExpiry _ | .arbiterAging _ | .doorbell _ _ _ | .genreq _ _ _
  | .faultdbWrite _ _ _ | .registerWrite _ _ _ _ | .pwrlimWrite _ | .testpolWrite _ | .thaw _ | .decisionPoint _
  | .gangPlaced _ _ | .priorityAging _ | .workGroupEnd _ | .launchComplete _ | .graphChildStart _ _
  | .engineStopAck _ _ | .preemptionComplete _ | .preemptBudgetExpiry _ | .remoteStopTimeout _ | .genBumpComplete _
  | .fabricRequest _ _ | .fabricReply _ | .retransmitTimeout _ | .operationAgeExpiry _ | .cleatEntryAge _ _ _
  | .watermarkQuery _ _ | .watermarkAnswer _ _ _ | .cleatAbandon _ _ _ | .pairForget _ _ | .flitCrcFail _ _
  | .rateStepDown _ | .laneRetrainEnd _ | .rateStepUp _ | .sprayResend _ | .braidReady _ | .collComplete _
  | .hostBar4Access _ _ _ _ _ | .getVersion _ | .getCapabilities _ | .negotiateAlgorithms _ | .getDigests _
  | .getCertificate _ | .challenge _ _ | .getMeasurements _ _ | .keyExchange _ _ | .finish _ _ | .heartbeat _ _
  | .keyUpdate _ _ | .endSession _ _ | .tdiLock _ _ | .tdiStart _ _ | .stopInterface _ _ | .partitionConfig _ _
  | .partitionReset _ | .partitionResetEnd _ | .correctedError _ | .selfTestEnd _ | .registerBankRetire _ _ _
  | .spareRowEntry _ _ | .inFieldTestDue _ | .inFieldTestStart _ | .inFieldTestEnd _ | .supplySag _ _
  | .sagRecoveryStep _ | .ratioChange _ _ | .thermalStep _ | .limitHalve _ | .fatalError _ | .coldReset _ _ | .warmReset _ _
  | .castRecordRead _ | .firmwareStage _ | .firmwareApply _ | .firmwareCommit _ _ _ | .supplyRecovery _
  | .limitRestore _ | .uncorrectableError _ _ | .debugAgentResume _ _ | .effectLeavesCore _ _ | .linkKeyUpdate _ _ _
  | .ctxidReuseDelayEnd _ => false
  | .nop _ | .mov _ _ _ _ | .movi _ _ _ | .iadd _ _ _ _ _ _ | .iaddImmediate _ _ _ _ | .isub _ _ _ _ _ _
  | .iaddc _ _ _ _ _ _ | .imul _ _ _ _ _ _ | .imulh _ _ _ _ _ | .imad _ _ _ _ _ _ _ _ | .imin _ _ _ _ _
  | .imax _ _ _ _ _ | .iabs _ _ _ _ | .and _ _ _ _ | .andImmediate _ _ _ _ | .or _ _ _ _ | .orImmediate _ _ _ _
  | .xor _ _ _ _ | .xorImmediate _ _ _ _ | .blut _ _ _ _ _ _ | .shl _ _ _ _ _ | .shr _ _ _ _ _ | .sar _ _ _ _ _
  | .fshl _ _ _ _ _ _ | .fshr _ _ _ _ _ _ | .bfe _ _ _ _ _ | .bfi _ _ _ _ _ | .popc _ _ _ | .clz _ _ _ | .brev _ _ _
  | .icmp _ _ _ _ _ _ _ _ _ | .sel _ _ _ _ _ | .bperm _ _ _ _ _ | .fadd _ _ _ _ _ | .fsub _ _ _ _ _ | .fmul _ _ _ _ _
  | .ffma _ _ _ _ _ _ | .fmin _ _ _ _ | .fmax _ _ _ _ | .fcmp _ _ _ _ _ _ _ | .frcp _ _ _ _ | .frsq _ _ _ _
  | .fsqrt _ _ _ _ | .fexp2 _ _ _ _ | .flog2 _ _ _ _ | .fclass _ _ _ | .pkadd _ _ _ _ _ _ | .pkmul _ _ _ _ _ _
  | .pkfma _ _ _ _ _ _ _ | .cvt _ _ _ _ _ _ _ _ | .bxpk _ _ _ _ _ | .bxupk _ _ _ _ | .pairMov _ _ | .pairIadd _ _
  | .pairIsub _ _ | .pairImul _ _ | .pairIminS _ _ | .pairImaxS _ _ | .pairIminU _ _ | .pairImaxU _ _ | .pairAnd _ _
  | .pairOr _ _ | .pairXor _ _ | .pairShl _ _ | .pairShr _ _ | .pairSar _ _ | .pairPopc _ _ | .pairClz _ _
  | .pairFadd _ _ | .pairFsub _ _ | .pairFmul _ _ | .pairFmin _ _ | .pairFmax _ _ | .pairPkaddBf _ _
  | .pairPkmulBf _ _ | .shfl _ _ _ _ _ _ | .shflx _ _ _ _ _ | .shflup _ _ _ _ _ | .shfldn _ _ _ _ _
  | .bcast _ _ _ _ _ | .lxpose _ _ _ _ | .compact _ _ _ _ | .expand _ _ _ _ | .relay _ _ | .layrd _ _ _ _
  | .laywr _ _ _ | .voteBallot _ _ _ | .voteAny _ _ _ | .voteAll _ _ _ | .voteEq _ _ _ | .gred _ _ _ _ _ _
  | .gscan _ _ _ _ _ _ _ | .matchv _ _ _ _ _ | .bra _ _ _ | .braAny _ _ | .brx _ _ | .join | .call _ _ | .ret _
  | .exit _ | .yield _ | .setexP _ _ | .setexV _ _ | .setexRst | .getex _ _ _ | .plop _ _ _ _ _ _ | .p2v _ _
  | .v2p _ _ _ | .spawn _ _ _ _ | .ld _ _ _ _ _ | .st _ _ _ _ _ | .lds _ _ _ _ _ | .sts _ _ _ _ _ | .ldu _ _ _ _ _ _
  | .stu _ _ _ _ _ _ | .ld2s _ _ _ _ _ _ | .pref _ _ _ _ | .cmaintDrop _ _ _ | .cmaintDropall _ | .cmaintClean _ _ _
  | .cmaintFlush _ _ _ | .atom _ _ _ _ _ _ | .red _ _ _ _ _ | .cas _ _ _ _ _ _ | .fence _ _ _ | .mscmd _ _ _ _
  | .barSync _ _ _ _ _ _ | .barArr _ _ _ | .barWait _ _ _ | .barExp _ _ _ | .bartx _ _ _ _ | .cpyLin _ _ _ _ _ _ _
  | .cpyTld _ _ _ _ _ | .cpyTst _ _ _ _ _ | .cpyTred _ _ _ _ _ | .publ _ _ | .cpywp _ _ _ | .cpywt _ _
  | .cpymc _ _ _ _ _ _ _ | .coll _ _ _ | .collwt _ _ | .wvsel _ _ | .trpk _ _ _ | .trupk _ _ _ | .trspk _ _ _
  | .trsupk _ _ _ | .tld _ _ _ _ _ _ _ _ | .mma _ _ _ _ _ _ | .mmas _ _ _ _ _ _ _ | .mmag _ _ _ _ _ _ _ _
  | .aclr _ _ _ | .adrain _ _ _ _ _ _ | .ard _ _ _ _ _ _ | .mfence _ _ | .mwait _ _ | .mwaitAll _ | .achk _ _ _ _
  | .aflip _ _ _ | .qset _ _ _ | .qget _ _ _ | .trap _ _ | .bpt _ _ | .rtt _ | .rttKill _ | .sysrd _ _ _
  | .syswr _ _ _ | .preemptOff _ | .preemptOn _ | .evrec _ _ _ | .halt _ | .sleep _ _ | .icinv _ _ _ | .genbump _ _ _
  | .tlbinv _ _ _ _ | .stest _ _ _ | .lsupd _ _ _ => true

end Sys2Proof
end

