-- ==== Sys2Proof/Decode.lean ====
section
/-! DEFINITION. The decoder of instruction words, total on any bytes (R71–R90, R408–R409), and after it the encoder. -/

namespace Sys2Proof

/-- Why a pattern is not an instruction (R87, R407). -/
inductive DecodeError
  /-- fewer than eight bytes -/
  | short
  /-- OPC unassigned -/
  | unassigned
  /-- guard 0b1111 -/
  | guard
  /-- an operand field the instruction does not use, or bits of a field above its kind, nonzero -/
  | unusedField
  /-- a reserved or undefined modifier bit nonzero -/
  | reservedBit
  /-- a reserved code in a modifier field -/
  | reservedCode
  /-- kind or join24 not allowed by R80 -/
  | branchField
  /-- an operand or field value the instruction does not accept -/
  | operand
  /-- pair word: bit [0] set, or slot bits [2:0] nonzero -/
  | pairBits
  /-- pair word: pair opcode 0x17–0x7F -/
  | pairOpcode
  /-- pair word: slot guard, immediate or bank violation -/
  | pairOperand
  /-- a legacy word whose transformation fails -/
  | legacy
  deriving DecidableEq, Repr

/-- The errors whose fate is ILLEGAL_BUNDLE; every other is ILLEGAL_OPCODE (R87). -/
def DecodeError.isBundle : DecodeError → Bool
  | .pairBits | .pairOpcode | .pairOperand => true
  | .short | .unassigned | .guard | .unusedField | .reservedBit | .reservedCode | .branchField | .operand | .legacy => false

/-! ## Codes of the modifier fields -/

/-- RND codes (R76). -/
def Rnd.code : Rnd → BitVec 2
  | .rne => 0 | .rtz => 1 | .rdn => 2 | .rup => 3
/-- RND of a code (R76). -/
def Rnd.ofCode (c : BitVec 2) : Rnd :=
  if c = 0 then .rne else if c = 1 then .rtz else if c = 2 then .rdn else .rup

/-- SIZE codes (R77). -/
def MSize.code : MSize → BitVec 3
  | .b => 0 | .h => 1 | .w => 2 | .d => 3 | .q => 4
/-- SIZE of a code; 5–7 are reserved (R77). -/
def MSize.ofCode (c : BitVec 3) : Option MSize :=
  if c = 0 then some .b else if c = 1 then some .h else if c = 2 then some .w else if c = 3 then some .d
  else if c = 4 then some .q else none

/-- ORDER codes (R77). -/
def Order.code : Order → BitVec 2
  | .rlx => 0 | .acq => 1 | .rel => 2 | .ar => 3
/-- ORDER of a code (R77). -/
def Order.ofCode (c : BitVec 2) : Order :=
  if c = 0 then .rlx else if c = 1 then .acq else if c = 2 then .rel else .ar

/-- Scope codes (R78). -/
def Scope.code : Scope → BitVec 3
  | .wave => 0 | .block => 1 | .cluster => 2 | .device => 3 | .system => 4 | .memside => 5
/-- Scope of a code; 6–7 are reserved (R78). -/
def Scope.ofCode (c : BitVec 3) : Option Scope :=
  if c = 0 then some .wave else if c = 1 then some .block else if c = 2 then some .cluster
  else if c = 3 then some .device else if c = 4 then some .system else if c = 5 then some .memside else none

/-- HINT codes (R77). -/
def Hint.code : Hint → BitVec 2
  | .normal => 0 | .stream => 1 | .keep => 2 | .noL1 => 3
/-- HINT of a code (R77). -/
def Hint.ofCode (c : BitVec 2) : Hint :=
  if c = 0 then .normal else if c = 1 then .stream else if c = 2 then .keep else .noL1

/-- SPACE codes (R77). -/
def Space.code : Space → BitVec 2
  | .global => 0 | .scratch => 1 | .window => 2
/-- SPACE of a code; 3 is reserved (R77). -/
def Space.ofCode (c : BitVec 2) : Option Space :=
  if c = 0 then some .global else if c = 1 then some .scratch else if c = 2 then some .window else none

/-- aop codes (R79). -/
def Aop.code : Aop → BitVec 4
  | .add => 0 | .and => 1 | .or => 2 | .xor => 3 | .minS => 4 | .maxS => 5 | .minU => 6 | .maxU => 7
  | .xchg => 8 | .incw => 9 | .decw => 10 | .fadd => 11 | .fmin => 12 | .fmax => 13
/-- aop of a code; 14–15 are reserved (R79). -/
def Aop.ofCode (c : BitVec 4) : Option Aop :=
  if c = 0 then some .add else if c = 1 then some .and else if c = 2 then some .or else if c = 3 then some .xor
  else if c = 4 then some .minS else if c = 5 then some .maxS else if c = 6 then some .minU
  else if c = 7 then some .maxU else if c = 8 then some .xchg else if c = 9 then some .incw
  else if c = 10 then some .decw else if c = 11 then some .fadd else if c = 12 then some .fmin
  else if c = 13 then some .fmax else none

/-- OP codes of reductions (R141). -/
def GOp.code : GOp → BitVec 4
  | .add => 0 | .and => 1 | .or => 2 | .xor => 3 | .minS => 4 | .maxS => 5 | .minU => 6 | .maxU => 7
  | .fadd => 8 | .fmin => 9 | .fmax => 10
/-- OP of a code; 11–15 are reserved (R141). -/
def GOp.ofCode (c : BitVec 4) : Option GOp :=
  if c = 0 then some .add else if c = 1 then some .and else if c = 2 then some .or else if c = 3 then some .xor
  else if c = 4 then some .minS else if c = 5 then some .maxS else if c = 6 then some .minU
  else if c = 7 then some .maxU else if c = 8 then some .fadd else if c = 9 then some .fmin
  else if c = 10 then some .fmax else none

/-- COND codes of ICMP (R117). -/
def ICond.code : ICond → BitVec 3
  | .eq => 0 | .ne => 1 | .lt => 2 | .le => 3 | .gt => 4 | .ge => 5
/-- COND of ICMP; 6–7 are reserved (R117). -/
def ICond.ofCode (c : BitVec 3) : Option ICond :=
  if c = 0 then some .eq else if c = 1 then some .ne else if c = 2 then some .lt else if c = 3 then some .le
  else if c = 4 then some .gt else if c = 5 then some .ge else none

/-- COND codes of FCMP (R122). -/
def FCond.code : FCond → BitVec 3
  | .eq => 0 | .ne => 1 | .lt => 2 | .le => 3 | .gt => 4 | .ge => 5 | .un => 6 | .ord => 7
/-- COND of FCMP (R122). -/
def FCond.ofCode (c : BitVec 3) : FCond :=
  if c = 0 then .eq else if c = 1 then .ne else if c = 2 then .lt else if c = 3 then .le
  else if c = 4 then .gt else if c = 5 then .ge else if c = 6 then .un else .ord

/-- COMB codes (R117). -/
def Comb.code : Comb → BitVec 2
  | .none => 0 | .and => 1 | .or => 2 | .xor => 3
/-- COMB of a code (R117). -/
def Comb.ofCode (c : BitVec 2) : Comb :=
  if c = 0 then .none else if c = 1 then .and else if c = 2 then .or else .xor

/-- CVT type codes (R126). -/
def NumType.code : NumType → BitVec 4
  | .s8 => 0 | .s16 => 1 | .s32 => 2 | .s64 => 3 | .u8 => 4 | .u16 => 5 | .u32 => 6 | .u64 => 7
  | .f32 => 8 | .bf16 => 9 | .f16 => 10
/-- Type of a CVT code; 11–15 are reserved (R126). -/
def NumType.ofCode (c : BitVec 4) : Option NumType :=
  if c = 0 then some .s8 else if c = 1 then some .s16 else if c = 2 then some .s32 else if c = 3 then some .s64
  else if c = 4 then some .u8 else if c = 5 then some .u16 else if c = 6 then some .u32 else if c = 7 then some .u64
  else if c = 8 then some .f32 else if c = 9 then some .bf16 else if c = 10 then some .f16 else none

/-- FMT codes of BXPK and BXUPK (R127). -/
def SxFmt.code : SxFmt → BitVec 2
  | .sx2 => 1 | .sx4 => 2 | .sx7 => 3
/-- FMT of a code; 0 is reserved (R127). -/
def SxFmt.ofCode (c : BitVec 2) : Option SxFmt :=
  if c = 1 then some .sx2 else if c = 2 then some .sx4 else if c = 3 then some .sx7 else none

/-- WID codes (R130). -/
def Wid.code : Wid → BitVec 3
  | .w32 => 0 | .w16 => 1 | .w8 => 2 | .w4 => 3 | .w2 => 4
/-- WID of a code; 5–7 are reserved (R130). -/
def Wid.ofCode (c : BitVec 3) : Option Wid :=
  if c = 0 then some .w32 else if c = 1 then some .w16 else if c = 2 then some .w8 else if c = 3 then some .w4
  else if c = 4 then some .w2 else none

/-- LEVEL codes (R179). -/
def Level.code : Level → BitVec 2
  | .wave => 0 | .block => 1 | .cluster => 2 | .grid => 3
/-- LEVEL of a code (R179). -/
def Level.ofCode (c : BitVec 2) : Level :=
  if c = 0 then .wave else if c = 1 then .block else if c = 2 then .cluster else .grid

/-- OP codes of CPYMC (R191). -/
def McOp.code : McOp → BitVec 2
  | .st => 0 | .fadd => 1 | .add => 2
/-- OP of CPYMC; 3 is reserved (R191). -/
def McOp.ofCode (c : BitVec 2) : Option McOp :=
  if c = 0 then some .st else if c = 1 then some .fadd else if c = 2 then some .add else none

/-- Pair opcodes (R85). -/
def PairOp.code : PairOp → BitVec 7
  | .mov => 0x00 | .iadd => 0x01 | .isub => 0x02 | .imul => 0x03 | .iminS => 0x04 | .imaxS => 0x05
  | .iminU => 0x06 | .imaxU => 0x07 | .and => 0x08 | .or => 0x09 | .xor => 0x0A | .shl => 0x0B | .shr => 0x0C
  | .sar => 0x0D | .popc => 0x0E | .clz => 0x0F | .fadd => 0x10 | .fsub => 0x11 | .fmul => 0x12 | .fmin => 0x13
  | .fmax => 0x14 | .pkaddBf => 0x15 | .pkmulBf => 0x16
/-- Pair opcode of a code; 0x17–0x7F are reserved (R85). -/
def PairOp.ofCode (c : BitVec 7) : Option PairOp :=
  if c = 0x00 then some .mov else if c = 0x01 then some .iadd else if c = 0x02 then some .isub
  else if c = 0x03 then some .imul else if c = 0x04 then some .iminS else if c = 0x05 then some .imaxS
  else if c = 0x06 then some .iminU else if c = 0x07 then some .imaxU else if c = 0x08 then some .and
  else if c = 0x09 then some .or else if c = 0x0A then some .xor else if c = 0x0B then some .shl
  else if c = 0x0C then some .shr else if c = 0x0D then some .sar else if c = 0x0E then some .popc
  else if c = 0x0F then some .clz else if c = 0x10 then some .fadd else if c = 0x11 then some .fsub
  else if c = 0x12 then some .fmul else if c = 0x13 then some .fmin else if c = 0x14 then some .fmax
  else if c = 0x15 then some .pkaddBf else if c = 0x16 then some .pkmulBf else none

/-! ## Decoding -/

/-- The guard field (R72). -/
def guardOf (w : BitVec 64) : Guard := ⟨w.getLsbD 52, w.extractLsb' 49 3⟩

/-- Every bit of the low 17 outside `allowed` is zero (R76). -/
def modOnly (w : BitVec 64) (allowed : BitVec 17) : Bool := (w.extractLsb' 0 17 &&& ~~~allowed) == 0

/-- A field the instruction does not use (R75). -/
def zeroField (x : BitVec 8) : Bool := x == 0

/-- A field naming a predicate (R75). -/
def predField (x : BitVec 8) : Bool := x.extractLsb' 3 5 == 0

/-- The predicate of a field (R75). -/
def predOf (x : BitVec 8) : PredNo := x.extractLsb' 0 3

/-- A field naming a shape record (R75). -/
def shapeField (x : BitVec 8) : Bool := x.extractLsb' 4 4 == 0

/-- The last checks of a decoded word: unused fields, then modifier bits, then codes, then operand rules. -/
def finishDecode (unused mods : Bool) (i : Option Instr) : Except DecodeError Instr :=
  if !unused then .error .unusedField
  else if !mods then .error .reservedBit
  else match i with
    | none => .error .reservedCode
    | some i => if i.wf then .ok i else .error .operand

/-- The mod13 fields of an M-class word (R77). -/
def memModOf (w : BitVec 64) : Option MemMod := do
  let size ← MSize.ofCode (w.extractLsb' 22 3)
  let scope ← Scope.ofCode (w.extractLsb' 16 3)
  let space ← Space.ofCode (w.extractLsb' 12 2)
  pure ⟨size, w.getLsbD 21, Order.ofCode (w.extractLsb' 19 2), scope, Hint.ofCode (w.extractLsb' 14 2), space⟩

/-- The A-class fields of an atomic (R79). -/
def atomModOf (w : BitVec 64) : Option AtomMod := do
  let aop ← Aop.ofCode (w.extractLsb' 21 4)
  let scope ← Scope.ofCode (w.extractLsb' 16 3)
  let wide ← if w.extractLsb' 13 3 = 2 then some false else if w.extractLsb' 13 3 = 3 then some true else none
  pure ⟨aop, Order.ofCode (w.extractLsb' 19 2), scope, wide, w.getLsbD 12⟩

/-- The completion fields of CPY and CPYMC (R185). -/
def copyModOf (w : BitVec 64) : Option CopyMod :=
  if w.getLsbD 11 then some ⟨w.extractLsb' 4 3, some (w.extractLsb' 7 4)⟩
  else if w.extractLsb' 7 4 = 0 then some ⟨w.extractLsb' 4 3, none⟩ else none

/-- BAR by its MODE and fuse fields (R179). -/
def decodeBar (w : BitVec 64) : Except DecodeError Instr :=
  let g := guardOf w
  let vd := w.extractLsb' 41 8
  let va := w.extractLsb' 33 8
  let level := Level.ofCode (w.extractLsb' 31 2)
  let index := w.extractLsb' 17 4
  let mode := w.extractLsb' 2 2
  let numOk := w.extractLsb' 21 10 == 0
  let plain := w.extractLsb' 10 7 == 0
  if mode = 0 then
    let fuse : Option (Option Fuse) :=
      if w.getLsbD 10 then (GOp.ofCode (w.extractLsb' 11 4)).map (fun op => some ⟨op, Rnd.ofCode (w.extractLsb' 15 2)⟩)
      else if plain then some none else none
    finishDecode true (modOnly w 0x1FC0C && numOk) (fuse.map (fun f => .barSync g vd va level index f))
  else if mode = 1 then
    finishDecode (zeroField vd && zeroField va) (modOnly w 0x0000C && numOk) (some (.barArr g level index))
  else if mode = 2 then
    finishDecode (zeroField vd && zeroField va) (modOnly w 0x0000C && numOk) (some (.barWait g level index))
  else
    finishDecode (zeroField vd) (modOnly w 0x0000C && numOk)
      (if level = .wave then some (.barExp g va index) else none)

/-- The integer and logic group, 0x000–0x01C (R102–R119). -/
def decodeInt (opc : Nat) (w : BitVec 64) : Except DecodeError Instr :=
  let g := guardOf w
  let vd := w.extractLsb' 41 8
  let va := w.extractLsb' 33 8
  let vb := w.extractLsb' 25 8
  let vc := w.extractLsb' 17 8
  let imm := w.extractLsb' 1 32
  let b := w.getLsbD
  let two := zeroField vc
  let one := zeroField vb && zeroField vc
  match opc with
  | 0x000 => finishDecode (w.extractLsb' 0 49 == 0) true (some (.nop g))
  | 0x001 => finishDecode one (modOnly w 0b100) (some (.mov g vd va (b 2)))
  | 0x002 => finishDecode (zeroField va) (!b 0) (some (.movi g vd imm))
  | 0x003 =>
    if b 0 then finishDecode true true (some (.iaddImmediate g vd va imm))
    else finishDecode two (modOnly w 0b110) (some (.iadd g vd va vb (b 1) (b 2)))
  | 0x004 => finishDecode two (modOnly w 0b11) (some (.isub g vd va vb (b 1) (b 0)))
  | 0x005 => finishDecode (predField vc) (modOnly w 0b100) (some (.iaddc g vd va vb (predOf vc) (b 2)))
  | 0x006 => finishDecode two (modOnly w 0b11) (some (.imul g vd va vb (b 1) (b 0)))
  | 0x007 => finishDecode two (modOnly w 0b1) (some (.imulh g vd va vb (b 0)))
  | 0x008 => finishDecode true (modOnly w 0b111) (some (.imad g vd va vb vc (b 2) (b 1) (b 0)))
  | 0x009 => finishDecode two (modOnly w 0b1) (some (.imin g vd va vb (b 0)))
  | 0x00A => finishDecode two (modOnly w 0b1) (some (.imax g vd va vb (b 0)))
  | 0x00B => finishDecode one (modOnly w 0b10) (some (.iabs g vd va (b 1)))
  | 0x00C =>
    if b 0 then finishDecode true true (some (.andImmediate g vd va imm))
    else finishDecode two (modOnly w 0) (some (.and g vd va vb))
  | 0x00D =>
    if b 0 then finishDecode true true (some (.orImmediate g vd va imm))
    else finishDecode two (modOnly w 0) (some (.or g vd va vb))
  | 0x00E =>
    if b 0 then finishDecode true true (some (.xorImmediate g vd va imm))
    else finishDecode two (modOnly w 0) (some (.xor g vd va vb))
  | 0x00F => finishDecode true (modOnly w 0x3FC) (some (.blut g vd va vb vc (w.extractLsb' 2 8)))
  | 0x010 => finishDecode two (modOnly w 0b100) (some (.shl g vd va vb (b 2)))
  | 0x011 => finishDecode two (modOnly w 0b100) (some (.shr g vd va vb (b 2)))
  | 0x012 => finishDecode two (modOnly w 0b100) (some (.sar g vd va vb (b 2)))
  | 0x013 => finishDecode true (modOnly w 0b100) (some (.fshl g vd va vb vc (b 2)))
  | 0x014 => finishDecode true (modOnly w 0b100) (some (.fshr g vd va vb vc (b 2)))
  | 0x015 => finishDecode two (modOnly w 0b1) (some (.bfe g vd va vb (b 0)))
  | 0x016 => finishDecode true (modOnly w 0) (some (.bfi g vd va vb vc))
  | 0x017 => finishDecode one (modOnly w 0) (some (.popc g vd va))
  | 0x018 => finishDecode one (modOnly w 0) (some (.clz g vd va))
  | 0x019 => finishDecode one (modOnly w 0) (some (.brev g vd va))
  | 0x01A => finishDecode (predField vd && predField vc) (modOnly w 0xFD)
      ((ICond.ofCode (w.extractLsb' 2 3)).map
        (fun c => .icmp g (predOf vd) va vb (predOf vc) c (Comb.ofCode (w.extractLsb' 5 2)) (b 7) (b 0)))
  | 0x01B => finishDecode (predField vc) (modOnly w 0) (some (.sel g vd va vb (predOf vc)))
  | 0x01C => finishDecode true (modOnly w 0) (some (.bperm g vd va vb vc))
  | _ => .error .unassigned

/-- The floating-point group, 0x080–0x092 (R120–R127). -/
def decodeFp (opc : Nat) (w : BitVec 64) : Except DecodeError Instr :=
  let g := guardOf w
  let vd := w.extractLsb' 41 8
  let va := w.extractLsb' 33 8
  let vb := w.extractLsb' 25 8
  let vc := w.extractLsb' 17 8
  let b := w.getLsbD
  let rnd := Rnd.ofCode (w.extractLsb' 15 2)
  let two := zeroField vc
  let one := zeroField vb && zeroField vc
  match opc with
  | 0x080 => finishDecode two (modOnly w 0x18000) (some (.fadd g vd va vb rnd))
  | 0x081 => finishDecode two (modOnly w 0x18000) (some (.fsub g vd va vb rnd))
  | 0x082 => finishDecode two (modOnly w 0x18000) (some (.fmul g vd va vb rnd))
  | 0x083 => finishDecode true (modOnly w 0x18000) (some (.ffma g vd va vb vc rnd))
  | 0x084 => finishDecode two (modOnly w 0) (some (.fmin g vd va vb))
  | 0x085 => finishDecode two (modOnly w 0) (some (.fmax g vd va vb))
  | 0x086 => finishDecode (predField vd && predField vc) (modOnly w 0x7C)
      (some (.fcmp g (predOf vd) va vb (predOf vc) (FCond.ofCode (w.extractLsb' 2 3)) (Comb.ofCode (w.extractLsb' 5 2))))
  | 0x087 => finishDecode one (modOnly w 0x18000) (some (.frcp g vd va rnd))
  | 0x088 => finishDecode one (modOnly w 0x18000) (some (.frsq g vd va rnd))
  | 0x089 => finishDecode one (modOnly w 0x18000) (some (.fsqrt g vd va rnd))
  | 0x08A => finishDecode one (modOnly w 0x18000) (some (.fexp2 g vd va rnd))
  | 0x08B => finishDecode one (modOnly w 0x18000) (some (.flog2 g vd va rnd))
  | 0x08C => finishDecode one (modOnly w 0) (some (.fclass g vd va))
  | 0x08D => finishDecode two (modOnly w 0x18004) (some (.pkadd g vd va vb (b 2) rnd))
  | 0x08E => finishDecode two (modOnly w 0x18004) (some (.pkmul g vd va vb (b 2) rnd))
  | 0x08F => finishDecode true (modOnly w 0x18004) (some (.pkfma g vd va vb vc (b 2) rnd))
  | 0x090 => finishDecode one (modOnly w 0x187FE)
      (do
        let dst ← NumType.ofCode (w.extractLsb' 6 4)
        let src ← NumType.ofCode (w.extractLsb' 2 4)
        pure (.cvt g vd va rnd (b 10) dst src (b 1)))
  | 0x091 => finishDecode one (modOnly w 0x1800C) ((SxFmt.ofCode (w.extractLsb' 2 2)).map (fun f => .bxpk g vd va f rnd))
  | 0x092 => finishDecode one (modOnly w 0xC) ((SxFmt.ofCode (w.extractLsb' 2 2)).map (fun f => .bxupk g vd va f))
  | _ => .error .unassigned

/-- The lay and lane group, 0x100–0x10E (R133). -/
def decodeLay (opc : Nat) (w : BitVec 64) : Except DecodeError Instr :=
  let g := guardOf w
  let vd := w.extractLsb' 41 8
  let va := w.extractLsb' 33 8
  let vb := w.extractLsb' 25 8
  let vc := w.extractLsb' 17 8
  let b := w.getLsbD
  let rnd := Rnd.ofCode (w.extractLsb' 15 2)
  let k := w.extractLsb' 2 5
  let wid := Wid.ofCode (w.extractLsb' 7 3)
  let one := zeroField vb && zeroField vc
  match opc with
  | 0x100 => finishDecode (zeroField vc) (modOnly w 0x384) (wid.map (fun n => .shfl g vd va vb n (b 2)))
  | 0x101 => finishDecode one (modOnly w 0x3FC) (wid.map (fun n => .shflx g vd va n k))
  | 0x102 => finishDecode one (modOnly w 0x3FC) (wid.map (fun n => .shflup g vd va n k))
  | 0x103 => finishDecode one (modOnly w 0x3FC) (wid.map (fun n => .shfldn g vd va n k))
  | 0x104 => finishDecode one (modOnly w 0x3FC) (wid.map (fun n => .bcast g vd va n k))
  | 0x105 => finishDecode one (modOnly w 0x1C) (some (.lxpose g vd va (w.extractLsb' 2 3)))
  | 0x106 => finishDecode (zeroField vb && predField vc) (modOnly w 0) (some (.compact g vd va (predOf vc)))
  | 0x107 => finishDecode (zeroField vb && predField vc) (modOnly w 0) (some (.expand g vd va (predOf vc)))
  | 0x108 => finishDecode (zeroField va && one) (modOnly w 0) (some (.relay g vd))
  | 0x109 => finishDecode one (modOnly w 0b100) (some (.layrd g vd va (b 2)))
  | 0x10A => finishDecode one (modOnly w 0) (some (.laywr g vd va))
  | 0x10B =>
    let unused := zeroField va && zeroField vb && predField vc
    if w.extractLsb' 2 2 = 0 then finishDecode unused (modOnly w 0xC) (some (.voteBallot g vd (predOf vc)))
    else if w.extractLsb' 2 2 = 1 then
      finishDecode (unused && predField vd) (modOnly w 0xC) (some (.voteAny g (predOf vd) (predOf vc)))
    else if w.extractLsb' 2 2 = 2 then
      finishDecode (unused && predField vd) (modOnly w 0xC) (some (.voteAll g (predOf vd) (predOf vc)))
    else finishDecode (unused && predField vd) (modOnly w 0xC) (some (.voteEq g (predOf vd) (predOf vc)))
  | 0x10C => finishDecode one (modOnly w 0x1FB80)
      (do
        let op ← GOp.ofCode (w.extractLsb' 11 4)
        let n ← wid
        pure (.gred g vd va op n rnd))
  | 0x10D => finishDecode one (modOnly w 0x1FB84)
      (do
        let op ← GOp.ofCode (w.extractLsb' 11 4)
        let n ← wid
        pure (.gscan g vd va op n rnd (b 2)))
  | 0x10E => finishDecode (one && (!b 3 || predField vd)) (modOnly w 0xC) (some (.matchv g vd va (b 3) (b 2)))
  | _ => .error .unassigned

/-- The control group, 0x140–0x14C (R147–R155). -/
def decodeControl (opc : Nat) (w : BitVec 64) : Except DecodeError Instr :=
  let g := guardOf w
  let vd := w.extractLsb' 41 8
  let va := w.extractLsb' 33 8
  let vb := w.extractLsb' 25 8
  let vc := w.extractLsb' 17 8
  let b := w.getLsbD
  let tgt := w.extractLsb' 25 24
  let join24 := w.extractLsb' 1 24
  let none4 := zeroField vd && zeroField va && zeroField vb && zeroField vc
  match opc with
  | 0x140 =>
    if b 0 then (if join24 = 0 then finishDecode true true (some (.braAny g tgt)) else .error .branchField)
    else finishDecode true true (some (.bra g tgt join24))
  | 0x141 => finishDecode (zeroField vd && zeroField vb && zeroField vc) (modOnly w 0) (some (.brx g va))
  | 0x142 => if g = Guard.always then finishDecode none4 (modOnly w 0) (some .join) else .error .guard
  | 0x143 => if !b 0 && join24 == 0 then finishDecode true true (some (.call g tgt)) else .error .branchField
  | 0x144 => finishDecode none4 (modOnly w 0) (some (.ret g))
  | 0x145 => finishDecode none4 (modOnly w 0) (some (.exit g))
  | 0x146 => finishDecode none4 (modOnly w 0) (some (.yield g))
  | 0x147 =>
    if !b 3 && !b 2 then
      finishDecode (zeroField vd && zeroField va && zeroField vb && predField vc) (modOnly w 0xC) (some (.setexP g (predOf vc)))
    else if !b 3 then
      finishDecode (zeroField vd && zeroField vb && zeroField vc) (modOnly w 0xC) (some (.setexV g va))
    else if b 2 then .error .reservedCode
    else if g = Guard.always then finishDecode none4 (modOnly w 0xC) (some .setexRst) else .error .guard
  | 0x148 => finishDecode (zeroField va && zeroField vb && zeroField vc) (modOnly w 0b100) (some (.getex g vd (b 2)))
  | 0x149 => finishDecode (predField vd && predField va && predField vb && predField vc) (modOnly w 0x3FC)
      (some (.plop g (predOf vd) (predOf va) (predOf vb) (predOf vc) (w.extractLsb' 2 8)))
  | 0x14A => finishDecode (zeroField va && zeroField vb && zeroField vc) (modOnly w 0) (some (.p2v g vd))
  | 0x14B => finishDecode (zeroField vd && zeroField vb && zeroField vc) (modOnly w 0x1FC) (some (.v2p g va (w.extractLsb' 2 7)))
  | 0x14C => finishDecode (zeroField vd) (modOnly w 0) (some (.spawn g va vb vc))
  | _ => .error .unassigned

/-- The memory group and the atomics, 0x180–0x188 and 0x200–0x206 (R157). -/
def decodeMem (opc : Nat) (w : BitVec 64) : Except DecodeError Instr :=
  let g := guardOf w
  let vd := w.extractLsb' 41 8
  let va := w.extractLsb' 33 8
  let vb := w.extractLsb' 25 8
  let off := w.extractLsb' 0 12
  let m := memModOf w
  let a := atomModOf w
  let vb0 := zeroField vb
  let vdb0 := zeroField vd && zeroField vb
  let mod13 := w.extractLsb' 12 13
  match opc with
  | 0x180 => finishDecode vb0 true (m.map (fun m => .ld g vd va m off))
  | 0x181 => finishDecode vb0 true (m.map (fun m => .st g vd va m off))
  | 0x182 => finishDecode vb0 true (m.map (fun m => .lds g vd va m off))
  | 0x183 => finishDecode vb0 true (m.map (fun m => .sts g vd va m off))
  | 0x184 => finishDecode true true (m.map (fun m => .stu g vd va vb m off))
  | 0x185 => finishDecode true true (m.map (fun m => .ldu g vd va vb m off))
  | 0x186 => finishDecode true true (m.map (fun m => .ld2s g vd va vb m off))
  | 0x187 => finishDecode vdb0 (mod13 &&& 0x1FF3 == 0) (some (.pref g va (Hint.ofCode (w.extractLsb' 14 2)) off))
  | 0x188 =>
    let ok := mod13 &&& 0x3FF == 0
    if w.extractLsb' 22 3 = 0 then finishDecode vdb0 ok (some (.cmaintDrop g va off))
    else if w.extractLsb' 22 3 = 1 then finishDecode (vdb0 && zeroField va && off == 0) ok (some (.cmaintDropall g))
    else if w.extractLsb' 22 3 = 2 then finishDecode vdb0 ok (some (.cmaintClean g va off))
    else if w.extractLsb' 22 3 = 3 then finishDecode vdb0 ok (some (.cmaintFlush g va off))
    else .error .reservedCode
  | 0x200 => finishDecode true true (a.map (fun a => .atom g vd va vb a off))
  | 0x201 => finishDecode (zeroField vd) true (a.map (fun a => .red g va vb a off))
  | 0x202 => finishDecode true true (a.map (fun a => .cas g vd va vb a off))
  | 0x203 => finishDecode (vdb0 && zeroField va && off == 0) (mod13 &&& 0x1E0F == 0)
      ((Scope.ofCode (w.extractLsb' 16 3)).map (fun s => .fence g (Order.ofCode (w.extractLsb' 19 2)) s))
  | 0x204 => decodeBar w
  | 0x205 => finishDecode (zeroField vd) (modOnly w 0b100 && w.extractLsb' 21 12 == 0)
      (some (.bartx g va (w.extractLsb' 17 4) (w.getLsbD 2)))
  | 0x206 => if mod13 = 0b0100101010000 then finishDecode vb0 true (some (.mscmd g vd va off)) else .error .reservedCode
  | _ => .error .unassigned

/-- The engine group, 0x240–0x247 (R185–R192). -/
def decodeEngine (opc : Nat) (w : BitVec 64) : Except DecodeError Instr :=
  let g := guardOf w
  let vd := w.extractLsb' 41 8
  let va := w.extractLsb' 33 8
  let vb := w.extractLsb' 25 8
  let vc := w.extractLsb' 17 8
  let c := copyModOf w
  let num3 := w.extractLsb' 20 13 == 0
  match opc with
  | 0x240 =>
    let kind := w.extractLsb' 2 2
    let q : BitVec 4 := vb.extractLsb' 0 4
    if kind = 0 then finishDecode (zeroField vc) (modOnly w 0x3FFC) (c.map (fun c => .cpyLin g vd va vb c (w.getLsbD 13) (w.getLsbD 12)))
    else
      let unused := zeroField vc && shapeField vb
      let i : Option Instr :=
        c.map (fun c => if kind = 1 then .cpyTld g vd va q c else if kind = 2 then .cpyTst g vd va q c else .cpyTred g vd va q c)
      finishDecode unused (modOnly w 0xFFC) i
  | 0x241 => finishDecode (zeroField vd && zeroField vb && zeroField vc) (modOnly w 0) (some (.publ g va))
  | 0x242 => finishDecode (zeroField va) (modOnly w 0 && num3) (some (.cpywp g vd (w.extractLsb' 17 3)))
  | 0x243 => finishDecode (zeroField vd && zeroField va) (modOnly w 0 && num3) (some (.cpywt g (w.extractLsb' 17 3)))
  | 0x244 => finishDecode true (modOnly w 0xFFC)
      (do
        let op ← McOp.ofCode (w.extractLsb' 2 2)
        let c ← c
        pure (.cpymc g vd va vb vc op c))
  | 0x245 => finishDecode (zeroField vd && zeroField vb && zeroField vc) (modOnly w 0xE0) (some (.coll g va (w.extractLsb' 5 3)))
  | 0x246 => finishDecode (zeroField vd && zeroField va) (modOnly w 0 && num3) (some (.collwt g (w.extractLsb' 17 3)))
  | 0x247 => finishDecode (zeroField vd && zeroField vb && zeroField vc) (modOnly w 0) (some (.wvsel g va))
  | _ => .error .unassigned

/-- The ternary and matrix group, 0x280–0x290 (R199). -/
def decodeMatrix (opc : Nat) (w : BitVec 64) : Except DecodeError Instr :=
  let g := guardOf w
  let vd := w.extractLsb' 41 8
  let va := w.extractLsb' 33 8
  let vb := w.extractLsb' 25 8
  let vc := w.extractLsb' 17 8
  let b := w.getLsbD
  let tile := w.extractLsb' 2 2
  let one := zeroField vb && zeroField vc
  match opc with
  | 0x280 => finishDecode one (modOnly w 0) (some (.trpk g vd va))
  | 0x281 => finishDecode one (modOnly w 0) (some (.trupk g vd va))
  | 0x282 => finishDecode one (modOnly w 0) (some (.trspk g vd va))
  | 0x283 => finishDecode one (modOnly w 0) (some (.trsupk g vd va))
  | 0x284 => finishDecode true (modOnly w 0xFFC) (some (.tld g vd va vb vc (w.extractLsb' 8 4) (w.extractLsb' 3 5) (b 2)))
  | 0x285 => finishDecode true (modOnly w 0xC) (some (.mma g vd va vb vc tile))
  | 0x286 => finishDecode (zeroField vd) (modOnly w 0x7FC) (some (.mmas g va vb vc (w.extractLsb' 6 5) (w.extractLsb' 4 2) tile))
  | 0x287 => finishDecode true (modOnly w 0x7FC) (some (.mmag g vd va vb vc (w.extractLsb' 6 5) (w.extractLsb' 4 2) tile))
  | 0x288 => finishDecode (zeroField vd && zeroField va && zeroField vb) (modOnly w 0xC) (some (.aclr g vc tile))
  | 0x289 => finishDecode (zeroField vd && shapeField vb) (modOnly w 0x1C) (some (.adrain g va (vb.extractLsb' 0 4) vc (b 4) tile))
  | 0x28A => finishDecode (zeroField vb) (modOnly w 0x1C) (some (.ard g vd va vc (b 4) tile))
  | 0x28B => finishDecode (zeroField va && one) (modOnly w 0) (some (.mfence g vd))
  | 0x28C =>
    if b 2 then finishDecode (zeroField vd && zeroField va && one) (modOnly w 0b100) (some (.mwaitAll g))
    else finishDecode (zeroField vd && one) (modOnly w 0b100) (some (.mwait g va))
  | 0x28D => finishDecode (zeroField va && zeroField vb) (modOnly w 0xC) (some (.achk g vd vc tile))
  | 0x28E => finishDecode (zeroField vd && one) (modOnly w 0xC) (some (.aflip g va tile))
  | 0x28F => finishDecode (one && shapeField vd) (modOnly w 0) (some (.qset g (vd.extractLsb' 0 4) va))
  | 0x290 => finishDecode (one && shapeField va) (modOnly w 0) (some (.qget g vd (va.extractLsb' 0 4)))
  | _ => .error .unassigned

/-- The system group, 0x2C0–0x2CD (R217). -/
def decodeSystem (opc : Nat) (w : BitVec 64) : Except DecodeError Instr :=
  let g := guardOf w
  let vd := w.extractLsb' 41 8
  let va := w.extractLsb' 33 8
  let num := w.extractLsb' 17 16
  let b := w.getLsbD
  let none2 := zeroField vd && zeroField va
  match opc with
  | 0x2C0 => finishDecode none2 (modOnly w 0) (some (.trap g num))
  | 0x2C1 => finishDecode none2 (modOnly w 0b100 && num == 0) (some (if b 2 then .rttKill g else .rtt g))
  | 0x2C2 => finishDecode (zeroField va) (modOnly w 0) (some (.sysrd g vd num))
  | 0x2C3 => finishDecode (zeroField vd) (modOnly w 0) (some (.syswr g va num))
  | 0x2C4 => finishDecode none2 (modOnly w 0 && num.extractLsb' 1 15 == 0)
      (some (if num.getLsbD 0 then .preemptOff g else .preemptOn g))
  | 0x2C5 => finishDecode (zeroField vd) (modOnly w 0) (some (.evrec g va num))
  | 0x2C6 => finishDecode none2 (modOnly w 0 && num == 0) (some (.halt g))
  | 0x2C7 => finishDecode none2 (modOnly w 0) (some (.sleep g num))
  | 0x2C8 => finishDecode (zeroField vd) (modOnly w 0b100 && num == 0) (some (.icinv g va (b 2)))
  | 0x2C9 => finishDecode true (modOnly w 0 && num == 0) (some (.genbump g vd va))
  | 0x2CA => finishDecode (zeroField vd) (modOnly w 0b100) (some (.tlbinv g va num (b 2)))
  | 0x2CB => finishDecode (zeroField va) (modOnly w 0) (some (.stest g vd num))
  | 0x2CC => finishDecode none2 (modOnly w 0) (some (.bpt g num))
  | 0x2CD => finishDecode (zeroField va) (modOnly w 0) (some (.lsupd g vd num))
  | _ => .error .unassigned

/-- One slot of a pair word (R83). -/
def slotOf (s : BitVec 31) : Option PairSlot :=
  (PairOp.ofCode (s.extractLsb' 24 7)).map (fun op =>
    ⟨op, ⟨⟨s.getLsbD 23, s.extractLsb' 20 3⟩, s.extractLsb' 12 8,
      if s.getLsbD 3 then .imm (s.extractLsb' 4 8) else .reg (s.extractLsb' 4 8)⟩⟩)

/-- The pair word whose slot X has the opcode. -/
def pairInstr : PairOp → PairArgs → PairSlot → Instr
  | .mov => .pairMov | .iadd => .pairIadd | .isub => .pairIsub | .imul => .pairImul
  | .iminS => .pairIminS | .imaxS => .pairImaxS | .iminU => .pairIminU | .imaxU => .pairImaxU
  | .and => .pairAnd | .or => .pairOr | .xor => .pairXor | .shl => .pairShl | .shr => .pairShr | .sar => .pairSar
  | .popc => .pairPopc | .clz => .pairClz | .fadd => .pairFadd | .fsub => .pairFsub | .fmul => .pairFmul
  | .fmin => .pairFmin | .fmax => .pairFmax | .pkaddBf => .pairPkaddBf | .pkmulBf => .pairPkmulBf

/-- A pair word (R83–R87). -/
def decodePair (w : BitVec 64) : Except DecodeError Instr :=
  if w.getLsbD 0 || w.extractLsb' 1 3 != 0 || w.extractLsb' 32 3 != 0 then .error .pairBits
  else match slotOf (w.extractLsb' 32 31), slotOf (w.extractLsb' 1 31) with
    | some x, some y => if pairWf x.op x.args y then .ok (pairInstr x.op x.args y) else .error .pairOperand
    | _, _ => .error .pairOpcode

/-- A full word, by its opcode group (R89). -/
def decodeFull (w : BitVec 64) : Except DecodeError Instr :=
  let opc := (w.extractLsb' 53 10).toNat
  if !(guardOf w).wf && opc != 0 then .error .guard
  else if opc < 0x080 then decodeInt opc w
  else if opc < 0x100 then decodeFp opc w
  else if opc < 0x140 then decodeLay opc w
  else if opc < 0x180 then decodeControl opc w
  else if opc < 0x240 then decodeMem opc w
  else if opc < 0x280 then decodeEngine opc w
  else if opc < 0x2C0 then decodeMatrix opc w
  else decodeSystem opc w

/-- The instruction of a native word (R71). -/
def decode (w : BitVec 64) : Except DecodeError Instr :=
  if w.getLsbD 63 then decodePair w else decodeFull w

/-- The 64-bit number of eight bytes in memory order (R71). -/
def wordOfBytes (bs : List Byte) : BitVec 64 :=
  BitVec.ofNat 64 (bs.foldr (fun b n => n * 256 + b.toNat) 0)

/-- The `n` bytes of a number in memory order, least significant first (R5). -/
def bytesOfNat : Nat → Nat → List Byte
  | 0, _ => []
  | n + 1, x => BitVec.ofNat 8 x :: bytesOfNat n (x / 256)

/-- The decoder on bytes as they lie in memory: the instruction and the bytes after it. -/
def decodeBytes (bs : List Byte) : Except DecodeError (Instr × List Byte) :=
  if bs.length < 8 then .error .short
  else (decode (wordOfBytes (bs.take 8))).map (fun i => (i, bs.drop 8))

/-- The decoder on an opcode-table word of `nbits` bits, its higher bits zero. -/
def decodeTableWord (nbits w : Nat) : Option Instr :=
  match decodeBytes (bytesOfNat 8 (w % 2 ^ nbits)) with
  | .ok (i, _) => some i
  | .error _ => none

/-! ## Legacy decode modes (R407–R409) -/

/-- The native opcode of a Z6 or Z5 opcode (R408). -/
def legacyOpcode (c : Nat) : Option Nat :=
  if c ≤ 0x01C then some c
  else if 0x040 ≤ c ∧ c ≤ 0x052 then some (c + 0x040)
  else if 0x0C0 ≤ c ∧ c ≤ 0x0C4 then some (c + 0x040)
  else if 0x0C5 ≤ c ∧ c ≤ 0x0C8 then some (c + 0x046)
  else if 0x100 ≤ c ∧ c ≤ 0x10B then some (c + 0x040)
  else if 0x140 ≤ c ∧ c ≤ 0x148 then some (c + 0x040)
  else if 0x180 ≤ c ∧ c ≤ 0x186 then some (c + 0x080)
  else if 0x1C0 ≤ c ∧ c ≤ 0x1C4 then some (c + 0x080)
  else if c = 0x1C5 then some 0x247
  else if 0x200 ≤ c ∧ c ≤ 0x20C then some (c + 0x080)
  else if 0x240 ≤ c ∧ c ≤ 0x24D then some (c + 0x080)
  else none

/-- The Z6 form of a word made native (R408). -/
def fromZ6 (w : BitVec 64) : Option (BitVec 64) :=
  if w.getLsbD 63 then none
  else (legacyOpcode (w.extractLsb' 53 10).toNat).map
    (fun o => 0#1 ++ BitVec.ofNat 10 o ++ w.extractLsb' 0 53)

/-- The layout classes of a full word (R74). -/
inductive WordClass | rrr | ri | m | a | b | s
  deriving DecidableEq, Repr

/-- The class of a native opcode; a dual-form opcode's is chosen by bit [0] (R74, R82, R89). -/
def wordClass (opc : Nat) (bit0 : Bool) : WordClass :=
  if opc = 0x002 then .ri
  else if opc = 0x003 ∨ opc = 0x00C ∨ opc = 0x00D ∨ opc = 0x00E then (if bit0 then .ri else .rrr)
  else if opc = 0x140 ∨ opc = 0x143 then .b
  else if 0x180 ≤ opc ∧ opc ≤ 0x188 then .m
  else if opc = 0x203 ∨ opc = 0x206 then .m
  else if 0x200 ≤ opc ∧ opc ≤ 0x202 then .a
  else if opc = 0x204 ∨ opc = 0x205 ∨ opc = 0x242 ∨ opc = 0x243 ∨ opc = 0x246 then .s
  else if 0x2C0 ≤ opc then .s
  else .rrr

/-- The Z5 form of a word made native: 6-bit register fields widened (R409). -/
def fromZ5 (w : BitVec 64) : Option (BitVec 64) :=
  if w.getLsbD 63 then none
  else do
    let o ← legacyOpcode (w.extractLsb' 53 10).toNat
    let top : BitVec 15 := 0#1 ++ BitVec.ofNat 10 o ++ w.extractLsb' 49 4
    let r (lo : Nat) : BitVec 8 := (w.extractLsb' lo 6).setWidth 8
    match wordClass o (w.getLsbD 0) with
    | .rrr => if w.extractLsb' 17 8 = 0 then some (top ++ r 43 ++ r 37 ++ r 31 ++ r 25 ++ w.extractLsb' 0 17) else none
    | .ri | .s => if w.extractLsb' 33 4 = 0 then some (top ++ r 43 ++ r 37 ++ w.extractLsb' 0 33) else none
    | .m | .a => if w.extractLsb' 25 6 = 0 then some (top ++ r 43 ++ r 37 ++ r 31 ++ w.extractLsb' 0 25) else none
    | .b => some (top ++ w.extractLsb' 0 49)

/-! ## Encoding -/

/-- A full word of class RRR (R72, R74). -/
def encRRR (opc : BitVec 10) (g : Guard) (vd va vb vc : BitVec 8) (mod : BitVec 17) : BitVec 64 :=
  0#1 ++ opc ++ BitVec.ofBool g.gn ++ g.gp ++ vd ++ va ++ vb ++ vc ++ mod

/-- A full word of class RI (R74). -/
def encRI (opc : BitVec 10) (g : Guard) (vd va : BitVec 8) (imm : BitVec 32) (x : BitVec 1) : BitVec 64 :=
  0#1 ++ opc ++ BitVec.ofBool g.gn ++ g.gp ++ vd ++ va ++ imm ++ x

/-- A full word of class M (R74). -/
def encM (opc : BitVec 10) (g : Guard) (vd va vb : BitVec 8) (mod : BitVec 13) (off : BitVec 12) : BitVec 64 :=
  0#1 ++ opc ++ BitVec.ofBool g.gn ++ g.gp ++ vd ++ va ++ vb ++ mod ++ off

/-- A full word of class B (R74). -/
def encB (opc : BitVec 10) (g : Guard) (tgt join24 : BitVec 24) (kind : BitVec 1) : BitVec 64 :=
  0#1 ++ opc ++ BitVec.ofBool g.gn ++ g.gp ++ tgt ++ join24 ++ kind

/-- A full word of class S (R74). -/
def encS (opc : BitVec 10) (g : Guard) (vd va : BitVec 8) (num : BitVec 16) (mod : BitVec 17) : BitVec 64 :=
  0#1 ++ opc ++ BitVec.ofBool g.gn ++ g.gp ++ vd ++ va ++ num ++ mod

/-- A predicate in an operand field (R75). -/
def encP (p : PredNo) : BitVec 8 := 0#5 ++ p

/-- A shape record in an operand field (R75). -/
def encQ (q : BitVec 4) : BitVec 8 := 0#4 ++ q

/-- mod13 of a load or store (R77). -/
def MemMod.code (m : MemMod) : BitVec 13 :=
  m.size.code ++ BitVec.ofBool m.sx ++ m.order.code ++ m.scope.code ++ m.hint.code ++ m.space.code

/-- mod17 with RND alone (R76). -/
def Rnd.mod (r : Rnd) : BitVec 17 := r.code ++ 0#15

/-- A full word of class A (R74, R79). -/
def encA (opc : BitVec 10) (g : Guard) (vd va vb : BitVec 8) (a : AtomMod) (off : BitVec 12) : BitVec 64 :=
  0#1 ++ opc ++ BitVec.ofBool g.gn ++ g.gp ++ vd ++ va ++ vb ++
    (a.aop.code ++ a.order.code ++ a.scope.code ++ (if a.wide then 3#3 else 2#3) ++ BitVec.ofBool a.scratch : BitVec 13) ++ off

/-- One slot of a pair word (R83). -/
def encSlot (op : PairOp) (a : PairArgs) : BitVec 31 :=
  op.code ++ BitVec.ofBool a.g.gn ++ a.g.gp ++ a.vd ++
    (match a.src with | .reg vs => (vs ++ 0#1 : BitVec 9) | .imm i => i ++ 1#1) ++ 0#3

/-- A pair word (R83). -/
def encPair (op : PairOp) (x : PairArgs) (y : PairSlot) : BitVec 64 :=
  1#1 ++ encSlot op x ++ encSlot y.op y.args ++ 0#1

/-- mod17 of a BAR (R179). -/
def encBar (g : Guard) (vd va : Reg) (level : Level) (index : BitVec 4) (mode : BitVec 2) (fuse : Option Fuse) : BitVec 64 :=
  encS 0x204 g vd va (level.code ++ 0#10 ++ index)
    (match fuse with
     | none => 0#13 ++ mode ++ 0#2
     | some f => f.rnd.code ++ f.op.code ++ 1#1 ++ 0#6 ++ mode ++ 0#2)

/-- The copy fields [11:4] of CPY and CPYMC (R185, R191). -/
def CopyMod.code (c : CopyMod) : BitVec 8 :=
  match c.bar with
  | none => 0#5 ++ c.ch
  | some b => 1#1 ++ b ++ c.ch

open BitVec in
/-- The word of an instruction; an event has none. -/
def encode : Instr → Option (BitVec 64)
  | .nop g => some (encRRR 0x000 g 0 0 0 0 0)
  | .mov g vd va d => some (encRRR 0x001 g vd va 0 0 (0#14 ++ ofBool d ++ 0#2))
  | .movi g vd imm => some (encRI 0x002 g vd 0 imm 0)
  | .iadd g vd va vb sat u => some (encRRR 0x003 g vd va vb 0 (0#14 ++ ofBool u ++ ofBool sat ++ 0#1))
  | .iaddImmediate g vd va imm => some (encRI 0x003 g vd va imm 1)
  | .isub g vd va vb sat u => some (encRRR 0x004 g vd va vb 0 (0#15 ++ ofBool sat ++ ofBool u))
  | .iaddc g vd va vb pc ci => some (encRRR 0x005 g vd va vb (encP pc) (0#14 ++ ofBool ci ++ 0#2))
  | .imul g vd va vb sat u => some (encRRR 0x006 g vd va vb 0 (0#15 ++ ofBool sat ++ ofBool u))
  | .imulh g vd va vb u => some (encRRR 0x007 g vd va vb 0 (0#16 ++ ofBool u))
  | .imad g vd va vb vc wide sat u => some (encRRR 0x008 g vd va vb vc (0#14 ++ ofBool wide ++ ofBool sat ++ ofBool u))
  | .imin g vd va vb u => some (encRRR 0x009 g vd va vb 0 (0#16 ++ ofBool u))
  | .imax g vd va vb u => some (encRRR 0x00A g vd va vb 0 (0#16 ++ ofBool u))
  | .iabs g vd va sat => some (encRRR 0x00B g vd va 0 0 (0#15 ++ ofBool sat ++ 0#1))
  | .and g vd va vb => some (encRRR 0x00C g vd va vb 0 0)
  | .andImmediate g vd va imm => some (encRI 0x00C g vd va imm 1)
  | .or g vd va vb => some (encRRR 0x00D g vd va vb 0 0)
  | .orImmediate g vd va imm => some (encRI 0x00D g vd va imm 1)
  | .xor g vd va vb => some (encRRR 0x00E g vd va vb 0 0)
  | .xorImmediate g vd va imm => some (encRI 0x00E g vd va imm 1)
  | .blut g vd va vb vc lut => some (encRRR 0x00F g vd va vb vc (0#7 ++ lut ++ 0#2))
  | .shl g vd va vb cl => some (encRRR 0x010 g vd va vb 0 (0#14 ++ ofBool cl ++ 0#2))
  | .shr g vd va vb cl => some (encRRR 0x011 g vd va vb 0 (0#14 ++ ofBool cl ++ 0#2))
  | .sar g vd va vb cl => some (encRRR 0x012 g vd va vb 0 (0#14 ++ ofBool cl ++ 0#2))
  | .fshl g vd va vb vc cl => some (encRRR 0x013 g vd va vb vc (0#14 ++ ofBool cl ++ 0#2))
  | .fshr g vd va vb vc cl => some (encRRR 0x014 g vd va vb vc (0#14 ++ ofBool cl ++ 0#2))
  | .bfe g vd va vb u => some (encRRR 0x015 g vd va vb 0 (0#16 ++ ofBool u))
  | .bfi g vd va vb vc => some (encRRR 0x016 g vd va vb vc 0)
  | .popc g vd va => some (encRRR 0x017 g vd va 0 0 0)
  | .clz g vd va => some (encRRR 0x018 g vd va 0 0 0)
  | .brev g vd va => some (encRRR 0x019 g vd va 0 0 0)
  | .icmp g pd va vb pc cond comb d u =>
    some (encRRR 0x01A g (encP pd) va vb (encP pc) (0#9 ++ ofBool d ++ comb.code ++ cond.code ++ 0#1 ++ ofBool u))
  | .sel g vd va vb pc => some (encRRR 0x01B g vd va vb (encP pc) 0)
  | .bperm g vd va vb vc => some (encRRR 0x01C g vd va vb vc 0)
  | .fadd g vd va vb rnd => some (encRRR 0x080 g vd va vb 0 rnd.mod)
  | .fsub g vd va vb rnd => some (encRRR 0x081 g vd va vb 0 rnd.mod)
  | .fmul g vd va vb rnd => some (encRRR 0x082 g vd va vb 0 rnd.mod)
  | .ffma g vd va vb vc rnd => some (encRRR 0x083 g vd va vb vc rnd.mod)
  | .fmin g vd va vb => some (encRRR 0x084 g vd va vb 0 0)
  | .fmax g vd va vb => some (encRRR 0x085 g vd va vb 0 0)
  | .fcmp g pd va vb pc cond comb =>
    some (encRRR 0x086 g (encP pd) va vb (encP pc) (0#10 ++ comb.code ++ cond.code ++ 0#2))
  | .frcp g vd va rnd => some (encRRR 0x087 g vd va 0 0 rnd.mod)
  | .frsq g vd va rnd => some (encRRR 0x088 g vd va 0 0 rnd.mod)
  | .fsqrt g vd va rnd => some (encRRR 0x089 g vd va 0 0 rnd.mod)
  | .fexp2 g vd va rnd => some (encRRR 0x08A g vd va 0 0 rnd.mod)
  | .flog2 g vd va rnd => some (encRRR 0x08B g vd va 0 0 rnd.mod)
  | .fclass g vd va => some (encRRR 0x08C g vd va 0 0 0)
  | .pkadd g vd va vb h rnd => some (encRRR 0x08D g vd va vb 0 (rnd.code ++ 0#12 ++ ofBool h ++ 0#2))
  | .pkmul g vd va vb h rnd => some (encRRR 0x08E g vd va vb 0 (rnd.code ++ 0#12 ++ ofBool h ++ 0#2))
  | .pkfma g vd va vb vc h rnd => some (encRRR 0x08F g vd va vb vc (rnd.code ++ 0#12 ++ ofBool h ++ 0#2))
  | .cvt g vd va rnd hs dst src sat =>
    some (encRRR 0x090 g vd va 0 0 (rnd.code ++ 0#4 ++ ofBool hs ++ dst.code ++ src.code ++ ofBool sat ++ 0#1))
  | .bxpk g vd va fmt rnd => some (encRRR 0x091 g vd va 0 0 (rnd.code ++ 0#11 ++ fmt.code ++ 0#2))
  | .bxupk g vd va fmt => some (encRRR 0x092 g vd va 0 0 (0#13 ++ fmt.code ++ 0#2))
  | .pairMov x y => some (encPair .mov x y)
  | .pairIadd x y => some (encPair .iadd x y)
  | .pairIsub x y => some (encPair .isub x y)
  | .pairImul x y => some (encPair .imul x y)
  | .pairIminS x y => some (encPair .iminS x y)
  | .pairImaxS x y => some (encPair .imaxS x y)
  | .pairIminU x y => some (encPair .iminU x y)
  | .pairImaxU x y => some (encPair .imaxU x y)
  | .pairAnd x y => some (encPair .and x y)
  | .pairOr x y => some (encPair .or x y)
  | .pairXor x y => some (encPair .xor x y)
  | .pairShl x y => some (encPair .shl x y)
  | .pairShr x y => some (encPair .shr x y)
  | .pairSar x y => some (encPair .sar x y)
  | .pairPopc x y => some (encPair .popc x y)
  | .pairClz x y => some (encPair .clz x y)
  | .pairFadd x y => some (encPair .fadd x y)
  | .pairFsub x y => some (encPair .fsub x y)
  | .pairFmul x y => some (encPair .fmul x y)
  | .pairFmin x y => some (encPair .fmin x y)
  | .pairFmax x y => some (encPair .fmax x y)
  | .pairPkaddBf x y => some (encPair .pkaddBf x y)
  | .pairPkmulBf x y => some (encPair .pkmulBf x y)
  | .shfl g vd vs vb wid z => some (encRRR 0x100 g vd vs vb 0 (0#7 ++ wid.code ++ 0#4 ++ ofBool z ++ 0#2))
  | .shflx g vd vs wid k => some (encRRR 0x101 g vd vs 0 0 (0#7 ++ wid.code ++ k ++ 0#2))
  | .shflup g vd vs wid k => some (encRRR 0x102 g vd vs 0 0 (0#7 ++ wid.code ++ k ++ 0#2))
  | .shfldn g vd vs wid k => some (encRRR 0x103 g vd vs 0 0 (0#7 ++ wid.code ++ k ++ 0#2))
  | .bcast g vd vs wid k => some (encRRR 0x104 g vd vs 0 0 (0#7 ++ wid.code ++ k ++ 0#2))
  | .lxpose g vd vs rows => some (encRRR 0x105 g vd vs 0 0 (0#12 ++ rows ++ 0#2))
  | .compact g vd vs pc => some (encRRR 0x106 g vd vs 0 (encP pc) 0)
  | .expand g vd vs pc => some (encRRR 0x107 g vd vs 0 (encP pc) 0)
  | .relay g vd => some (encRRR 0x108 g vd 0 0 0 0)
  | .layrd g vd va b => some (encRRR 0x109 g vd va 0 0 (0#14 ++ ofBool b ++ 0#2))
  | .laywr g vd va => some (encRRR 0x10A g vd va 0 0 0)
  | .voteBallot g vd pc => some (encRRR 0x10B g vd 0 0 (encP pc) 0)
  | .voteAny g pd pc => some (encRRR 0x10B g (encP pd) 0 0 (encP pc) 0x4)
  | .voteAll g pd pc => some (encRRR 0x10B g (encP pd) 0 0 (encP pc) 0x8)
  | .voteEq g pd pc => some (encRRR 0x10B g (encP pd) 0 0 (encP pc) 0xC)
  | .gred g vd va op wid rnd => some (encRRR 0x10C g vd va 0 0 (rnd.code ++ op.code ++ 0#1 ++ wid.code ++ 0#7))
  | .gscan g vd va op wid rnd exc =>
    some (encRRR 0x10D g vd va 0 0 (rnd.code ++ op.code ++ 0#1 ++ wid.code ++ 0#4 ++ ofBool exc ++ 0#2))
  | .matchv g vd va all d => some (encRRR 0x10E g vd va 0 0 (0#13 ++ ofBool all ++ ofBool d ++ 0#2))
  | .bra g tgt join => some (encB 0x140 g tgt join 0)
  | .braAny g tgt => some (encB 0x140 g tgt 0 1)
  | .brx g va => some (encRRR 0x141 g 0 va 0 0 0)
  | .join => some (encRRR 0x142 Guard.always 0 0 0 0 0)
  | .call g tgt => some (encB 0x143 g tgt 0 0)
  | .ret g => some (encRRR 0x144 g 0 0 0 0 0)
  | .exit g => some (encRRR 0x145 g 0 0 0 0 0)
  | .yield g => some (encRRR 0x146 g 0 0 0 0 0)
  | .setexP g pc => some (encRRR 0x147 g 0 0 0 (encP pc) 0)
  | .setexV g va => some (encRRR 0x147 g 0 va 0 0 0x4)
  | .setexRst => some (encRRR 0x147 Guard.always 0 0 0 0 0x8)
  | .getex g vd h => some (encRRR 0x148 g vd 0 0 0 (0#14 ++ ofBool h ++ 0#2))
  | .plop g pd pa pb pc lut => some (encRRR 0x149 g (encP pd) (encP pa) (encP pb) (encP pc) (0#7 ++ lut ++ 0#2))
  | .p2v g vd => some (encRRR 0x14A g vd 0 0 0 0)
  | .v2p g va mask => some (encRRR 0x14B g 0 va 0 0 (0#8 ++ mask ++ 0#2))
  | .spawn g va vb vc => some (encRRR 0x14C g 0 va vb vc 0)
  | .ld g vd va m off => some (encM 0x180 g vd va 0 m.code off)
  | .st g vd va m off => some (encM 0x181 g vd va 0 m.code off)
  | .lds g vd va m off => some (encM 0x182 g vd va 0 m.code off)
  | .sts g vd va m off => some (encM 0x183 g vd va 0 m.code off)
  | .stu g vd va vb m off => some (encM 0x184 g vd va vb m.code off)
  | .ldu g vd va vb m off => some (encM 0x185 g vd va vb m.code off)
  | .ld2s g vd va vb m off => some (encM 0x186 g vd va vb m.code off)
  | .pref g va hint off => some (encM 0x187 g 0 va 0 (0#9 ++ hint.code ++ 0#2) off)
  | .cmaintDrop g va off => some (encM 0x188 g 0 va 0 0 off)
  | .cmaintDropall g => some (encM 0x188 g 0 0 0 (1#3 ++ 0#10) 0)
  | .cmaintClean g va off => some (encM 0x188 g 0 va 0 (2#3 ++ 0#10) off)
  | .cmaintFlush g va off => some (encM 0x188 g 0 va 0 (3#3 ++ 0#10) off)
  | .atom g vd va vb a off => some (encA 0x200 g vd va vb a off)
  | .red g va vb a off => some (encA 0x201 g 0 va vb a off)
  | .cas g vd va vb a off => some (encA 0x202 g vd va vb a off)
  | .fence g order scope => some (encM 0x203 g 0 0 0 (0#4 ++ order.code ++ scope.code ++ 0#4) 0)
  | .mscmd g vd va off => some (encM 0x206 g vd va 0 (2#3 ++ 0#1 ++ Order.rel.code ++ Scope.memside.code ++ 0#4) off)
  | .barSync g vd va level index fuse => some (encBar g vd va level index 0 fuse)
  | .barArr g level index => some (encBar g 0 0 level index 1 none)
  | .barWait g level index => some (encBar g 0 0 level index 2 none)
  | .barExp g va index => some (encBar g 0 va .wave index 3 none)
  | .bartx g va index arr => some (encS 0x205 g 0 va (0#12 ++ index) (0#14 ++ ofBool arr ++ 0#2))
  | .cpyLin g vd va vb c ss ds => some (encRRR 0x240 g vd va vb 0 (0#3 ++ ofBool ss ++ ofBool ds ++ c.code ++ 0#2 ++ 0#2))
  | .cpyTld g vd va q c => some (encRRR 0x240 g vd va (encQ q) 0 (0#5 ++ c.code ++ 1#2 ++ 0#2))
  | .cpyTst g vd va q c => some (encRRR 0x240 g vd va (encQ q) 0 (0#5 ++ c.code ++ 2#2 ++ 0#2))
  | .cpyTred g vd va q c => some (encRRR 0x240 g vd va (encQ q) 0 (0#5 ++ c.code ++ 3#2 ++ 0#2))
  | .publ g va => some (encRRR 0x241 g 0 va 0 0 0)
  | .cpywp g vd ch => some (encS 0x242 g vd 0 (0#13 ++ ch) 0)
  | .cpywt g ch => some (encS 0x243 g 0 0 (0#13 ++ ch) 0)
  | .cpymc g vd va vb vc op c => some (encRRR 0x244 g vd va vb vc (0#5 ++ c.code ++ op.code ++ 0#2))
  | .coll g va tag => some (encRRR 0x245 g 0 va 0 0 (0#9 ++ tag ++ 0#5))
  | .collwt g tag => some (encS 0x246 g 0 0 (0#13 ++ tag) 0)
  | .wvsel g va => some (encRRR 0x247 g 0 va 0 0 0)
  | .trpk g vd va => some (encRRR 0x280 g vd va 0 0 0)
  | .trupk g vd va => some (encRRR 0x281 g vd va 0 0 0)
  | .trspk g vd va => some (encRRR 0x282 g vd va 0 0 0)
  | .trsupk g vd va => some (encRRR 0x283 g vd va 0 0 0)
  | .tld g vd va vb vc nn nk west => some (encRRR 0x284 g vd va vb vc (0#5 ++ nn ++ nk ++ ofBool west ++ 0#2))
  | .mma g vd va vb vc tile => some (encRRR 0x285 g vd va vb vc (0#13 ++ tile ++ 0#2))
  | .mmas g va vb vc kc nt tile => some (encRRR 0x286 g 0 va vb vc (0#6 ++ kc ++ nt ++ tile ++ 0#2))
  | .mmag g vd va vb vc kc nt tile => some (encRRR 0x287 g vd va vb vc (0#6 ++ kc ++ nt ++ tile ++ 0#2))
  | .aclr g vc tile => some (encRRR 0x288 g 0 0 0 vc (0#13 ++ tile ++ 0#2))
  | .adrain g va q vc add tile => some (encRRR 0x289 g 0 va (encQ q) vc (0#12 ++ ofBool add ++ tile ++ 0#2))
  | .ard g vd va vc raw tile => some (encRRR 0x28A g vd va 0 vc (0#12 ++ ofBool raw ++ tile ++ 0#2))
  | .mfence g vd => some (encRRR 0x28B g vd 0 0 0 0)
  | .mwait g va => some (encRRR 0x28C g 0 va 0 0 0)
  | .mwaitAll g => some (encRRR 0x28C g 0 0 0 0 0x4)
  | .achk g vd vc tile => some (encRRR 0x28D g vd 0 0 vc (0#13 ++ tile ++ 0#2))
  | .aflip g va tile => some (encRRR 0x28E g 0 va 0 0 (0#13 ++ tile ++ 0#2))
  | .qset g q va => some (encRRR 0x28F g (encQ q) va 0 0 0)
  | .qget g vd q => some (encRRR 0x290 g vd (encQ q) 0 0 0)
  | .trap g code => some (encS 0x2C0 g 0 0 code 0)
  | .bpt g code => some (encS 0x2CC g 0 0 code 0)
  | .rtt g => some (encS 0x2C1 g 0 0 0 0)
  | .rttKill g => some (encS 0x2C1 g 0 0 0 0x4)
  | .sysrd g vd n => some (encS 0x2C2 g vd 0 n 0)
  | .syswr g va n => some (encS 0x2C3 g 0 va n 0)
  | .preemptOff g => some (encS 0x2C4 g 0 0 1 0)
  | .preemptOn g => some (encS 0x2C4 g 0 0 0 0)
  | .evrec g va code => some (encS 0x2C5 g 0 va code 0)
  | .halt g => some (encS 0x2C6 g 0 0 0 0)
  | .sleep g n => some (encS 0x2C7 g 0 0 n 0)
  | .icinv g va all => some (encS 0x2C8 g 0 va 0 (0#14 ++ ofBool all ++ 0#2))
  | .genbump g vd va => some (encS 0x2C9 g vd va 0 0)
  | .tlbinv g va asid all => some (encS 0x2CA g 0 va asid (0#14 ++ ofBool all ++ 0#2))
  | .stest g vd unit => some (encS 0x2CB g vd 0 unit 0)
  | .lsupd g vd n => some (encS 0x2CD g vd 0 n 0)
  | .issue _ _ | .starvation _ | .sleepExpiry _ | .binTimerExpiry _ _ | .binLaunch _ _ | .memoryRequestArrival _ _
  | .loadDataDelivery _ _ | .faultRecord _ _ | .parkedWordGiveUp _ _ | .haltArrival _ _ | .siblingStop _ _
  | .handlerEntry _ | .strike _ | .rollbackResume _ | .matrixOrderBegin _ | .shadowReady _ | .mmagGroupStart _
  | .occupancyEnd _ | .matrixComplete _ | .drainBufferFree _ _ | .batchRetire _ _ | .copyChunk _ _
  | .ld2sDelivery _ _ | .reservationGrant _ | .chargeExpiry _ | .arbiterAging _ | .doorbell _ _ _ | .genreq _ _ _
  | .faultdbWrite _ _ _ | .registerWrite _ _ _ _ | .pwrlimWrite _ | .testpolWrite _ | .thaw _ | .decisionPoint _
  | .gangPlaced _ _ | .priorityAging _ | .workGroupEnd _ | .launchComplete _ | .graphChildStart _ _
  | .engineStopAck _ _ | .preemptionComplete _ | .preemptBudgetExpiry _ | .remoteStopTimeout _ | .genBumpComplete _
  | .fabricRequest _ _ | .fabricReply _ | .retransmitTimeout _ | .operationAgeExpiry _ | .cleatEntryAge _ _ _
  | .watermarkQuery _ _ | .watermarkAnswer _ _ _ | .cleatAbandon _ _ _ | .pairForget _ _ | .flitCrcFail _ _
  | .rateStepDown _ | .laneRetrainEnd _ | .rateStepUp _ | .sprayResend _ | .braidReady _ | .collComplete _
  | .hostBar4Access _ _ _ _ _ | .getVersion _ | .getCapabilities _ | .negotiateAlgorithms _ | .getDigests _
  | .getCertificate _ | .challenge _ _ | .getMeasurements _ _ | .keyExchange _ _ | .finish _ _ | .heartbeat _ _
  | .keyUpdate _ _ | .endSession _ _ | .tdiLock _ _ | .tdiStart _ _ | .stopInterface _ _ | .partitionConfig _ _
  | .partitionReset _ | .partitionResetEnd _ | .correctedError _ | .selfTestEnd _ | .registerBankRetire _ _ _
  | .spareRowEntry _ _ | .inFieldTestDue _ | .inFieldTestStart _ | .inFieldTestEnd _ | .supplySag _ _
  | .sagRecoveryStep _ | .ratioChange _ _ | .thermalStep _ | .limitHalve _ | .fatalError _ | .coldReset _ _ | .warmReset _ _
  | .castRecordRead _ | .firmwareStage _ | .firmwareApply _ | .firmwareCommit _ _ _ | .supplyRecovery _
  | .limitRestore _ | .uncorrectableError _ _ | .debugAgentResume _ _ | .effectLeavesCore _ _ | .linkKeyUpdate _ _ _
  | .ctxidReuseDelayEnd _ => none

end Sys2Proof
end

