-- ==== Sys2Proof/Config.lean ====
section
/-! DEFINITION. What one implementation fixes, and the values the manual leaves open: each open value is an opaque
constant with no body, applied to the number of the value drawn (State.fresh) or to the operands it depends on. -/

namespace Sys2Proof.Config

/-- Cores of the device (R1). -/
def cores : Nat := 192
/-- Clusters of the device (R1). -/
def clusters : Nat := 32
/-- Cores of one cluster (R1). -/
def coresPerCluster : Nat := 6
/-- Bytes of one DRAM channel: 1.5 GiB (R1). -/
def channelBytes : Nat := 0x60000000
/-- On-chip entries of the reconvergence stack (R145). -/
def stackOnChip : Nat := 32
/-- Most entries of the reconvergence stack (R145). -/
def stackMax : Nat := 1024
/-- Operand-log entries of a core (R242). -/
def logEntries : Nat := 64
/-- Bins of a core (R155). -/
def binsPerCore : Nat := 8
/-- Lay-table entries of a partition (R36). -/
def layTableEntries : Nat := 64
/-- Entries of a cleat (R382). -/
def cleatEntries : Nat := 4096
/-- Events of a cast record (R422). -/
def castEntries : Nat := 2048
/-- Requests that a core holds in flight (R256). -/
def requestsInFlight : Nat := 768
/-- 64-byte lines of a DRAM channel. -/
def channelLines : Nat := channelBytes / 64
/-- Core clocks a word must age before its effects leave the core (R307). -/
def strikeWindow : Nat := 40

/-- Whether an access uses a leaf or a code word that the core still holds cached (R352, R406): the manual lets either happen. -/
opaque useCached : Nat → Bool
/-- Which line leaves a full cache (R253): the manual fixes none. -/
opaque cacheVictim : Nat → Nat
/-- The bytes an MMIO read returns: another agent's (R354). -/
opaque mmioRead : Nat → BitVec 128
/-- The result of a self-test run (R229, R416): 0 passed, 1 transient, 2 lasting. -/
opaque testResult : Nat → BitVec 2
/-- The physical row of the array in which a lasting fault lies; 264 or more: no single row (R274). -/
opaque faultRow : Nat → Nat
/-- The rank of a lane among those of one atomic (R168): the lanes are applied in rising rank. -/
opaque laneRank : Nat → Nat → Nat
/-- Bytes that are read uncorrectable and used all the same (R303): draw, address. -/
opaque freeByte : Nat → Nat → BitVec 8
/-- The effective integer of an element of an SX block whose exponent is 0xFF (R55, R65), by the block's bits and the element's number: the
manual gives it none. -/
opaque nanInteger : Nat → Nat → Int
/-- Measurement digest of the numbers measured (R372): SHA3-256, whose value the manual does not define. -/
opaque digest : List Nat → BitVec 256
/-- Signature under the key named, of the numbers signed (R372, R424). -/
opaque signature : Nat → List Nat → BitVec 256
/-- The stream that ADDR and DATA of a private event are encrypted with (R423): partition, record key, cluster, TIME, SEQ. -/
opaque recordPad : Nat → Nat → Nat → Nat → Nat → BitVec 96
/-- The eye margin a lane's test measures (R421). -/
opaque eyeMargin : Nat → Nat
/-- Whether a strike sensor fails its test (R415). -/
opaque sensorFails : Nat → Bool
/-- Whether the areas of two strike sensors adjoin (R415). -/
opaque sensorsAdjoin : Nat → Nat → Bool
/-- CTXIDs that code on the control cores takes between two placements (R326). -/
opaque controlCtx : Nat → Nat
/-- A byte of a save slot that stands for contents in the device's own form (R340, R341): the region, the contents, the byte's place among
those that hold them. The manual names the contents and gives no layout for them. -/
opaque saveByte {α : Type} : Nat → α → Nat → BitVec 8
/-- Where the image of the active plane (0) and of the shadow plane (1) starts in the matrix region of a save slot (R340): the manual orders
the region's contents and gives no sizes. -/
opaque planeAt : Nat → Nat
/-- The fabric port that a frame leaves by, of those that reach its device (R391, R393): the manual gives no routing. -/
opaque portFor : Nat → Nat
/-- The device ID that the fabric management gives a device at a boot (R378). -/
opaque deviceId : Nat → BitVec 12
/-- Another route to the peer stands when a port has lost its last lane (R417): the manual gives no topology. -/
opaque otherRoute : Nat → Bool
/-- The trim of a part, measured at a cold boot (R429, R430). -/
opaque trimValue : Nat → BitVec 64

end Sys2Proof.Config
end

