-- ==== Sys2Proof/Machine/State.lean ====
section
/-! DEFINITION. The state of the device as plain data, the reasons a step can stop, and the state after reset. -/

namespace Sys2Proof.Machine

/-- Why a step stops with a fault. -/
inductive Fault
  /-- Raised by the meaning of an instruction word when `State.cur` names no live path slot: no agent issues the word. Safe: no run reaches it, since `step` issues only for a live slot. -/
  | noIssuingSlot
  /-- Raised by a page walk, a descriptor or a record read at a device address beyond the partition's physical space, which does not exist (R355). Safe. -/
  | noSuchAddress (part addr : Nat)
  deriving DecidableEq, Repr

/-- Why an instruction has no meaning. -/
inductive Refusal
  /-- Raised by the arm of an instruction that has no meaning yet, by its name. Safe. -/
  | notModelled (mnemonic : String)
  deriving DecidableEq, Repr

/-- Trap causes (R290). -/
inductive Cause
  | none | illegalOpcode | illegalBundle | privilege | misaligned | pageFault | permission | translationPoison
  | illegalConvergence | formatDivergence | formatIllegal | tritCode | barrierMisuse | remoteIndeterminate
  | engineShape | software | breakpoint | uncorrectable | siblingHalt
  deriving DecidableEq, Repr

/-- What a trap writes into the frame (R23, R42, R292): cause, fault mask, TTHREAD, TELEM, the faulting address. -/
structure Trap where
  cause : Cause
  mask : Mask
  thread : Lane
  telem : Word
  addr : Addr
  deriving DecidableEq, Repr

/-! ## Vector registers -/

/-- The entries of a lay: an element for each logical thread, or VOID (R29). -/
abbrev LocMap := Vector (Option Lane) 32

/-- The tag of a register (R40, R244); an affine register's base and stride are those of the values it holds. -/
inductive Tag
  | none
  | uniform
  | affine
  deriving DecidableEq, Repr

/-- One vector register of a wave: its storage, its lay, its borrowers (oldest first) and its tag (R11, R29–R32, R40). -/
structure Register where
  /-- the 32 physical elements -/
  elems : Row
  /-- the base, when it is another register -/
  base : Option Nat
  /-- the entries of the lay -/
  loc : LocMap
  /-- the registers that borrow this one, oldest first -/
  borrowers : List Nat
  tag : Tag
  deriving DecidableEq, Repr

/-- The entries of the identity lay (R29). -/
def LocMap.identity : LocMap := Vector.ofFn (fun t => some t)

/-- A register at launch: zero, identity lay, no borrower, no tag (R11). -/
def Register.launch : Register := ⟨Vector.replicate 32 0, none, LocMap.identity, [], .none⟩

/-! ## Paths -/

/-- The owner tag of a reconvergence entry (R145). -/
inductive Owner | slot0 | slot1 | shared
  deriving DecidableEq, Repr

/-- A reconvergence stack entry (R145). -/
inductive Entry
  | diverge (owner : Owner) (pc : Addr) (pending : Mask) (join : Addr) (union : Mask)
  | call (owner : Owner) (ret : Addr)
  deriving DecidableEq, Repr

/-- What a slot waits for (R247). -/
inductive Wait
  /-- at its pair join, until the other slot arrives or ends (R148) -/
  | join
  /-- at a barrier of a level and index: the units it waits for, each with its home and phase; a fused arrival names its
  destination and its cover (R177, R179, R180) -/
  | barrier (level : Level) (index : Nat) (units : List (Nat × Nat)) (fused : Option (Reg × Mask))
  /-- core clocks left of a SLEEP (R227) -/
  | sleep (clocks : Nat)
  /-- a fault record, of an instruction fetch or of what the word reads before it goes on, and the address that faulted (R360) -/
  | fetch (token : Nat) (addr : Addr)
  /-- its fetch, or what its word reads, has given up: the word raises the cause when the slot next issues (R295, R360) -/
  | gaveUp (cause : Cause) (addr : Addr)
  /-- an ARD or ACHK in matrix order (R197) -/
  | matrix (entry : Nat)
  /-- a TLD whose read is not complete (R203) -/
  | tile (entry : Nat)
  /-- a generation bump (R362) -/
  | bump (asid : Nat)
  /-- a self-test (R229) -/
  | test (unit : BitVec 16)
  /-- the word issues again once what it needs is there: MWAIT, MFENCE limit, CPYWT, COLLWT, COLL tag, SPAWN, PUBL,
  a full operand log or outstanding list, replies before a release (R155, R188, R192, R212, R213, R242, R380, R384) -/
  | stall
  deriving DecidableEq, Repr

/-- Bytes that peers have given for a read: address, bytes, whether one is uncorrectable (R203). -/
abbrev Given := List (Addr × List Byte × Bool)

/-- A path slot (R145, R238). -/
structure PathSlot where
  live : Bool
  pc : Addr
  exec : Mask
  hold : Mask
  /-- the pair join it holds (R147, R434) -/
  pair : Option Addr
  wait : Option Wait
  /-- core clocks it has been ready without issuing (R248) -/
  starved : Nat
  /-- it has issued YIELD and not issued since (R152) -/
  yielded : Bool
  /-- core clocks in which it is not selected after its YIELD: the one of the YIELD and the next (R152) -/
  rest : Nat
  /-- which of the wave's two paths it is; it keeps the name when it becomes the lone slot 0 (R434) -/
  label : Fin 2
  /-- memory words of its path below the first number, and of the whole wave below the second, come before every later access of
  the slot: a divergent BRA, a taken entry or a merge stood between (R266) -/
  after : Nat
  afterAll : Nat
  /-- threads of the SPAWN the slot stalls at that are in their bins already (R155) -/
  spawned : Mask
  /-- bytes that peers have given for what its word reads before it goes on: address, bytes, whether one is uncorrectable (R192) -/
  got : Given
  deriving DecidableEq, Repr

/-- A slot that is not live. -/
def PathSlot.empty : PathSlot :=
  { live := false, pc := 0, exec := 0, hold := 0, pair := none, wait := none, starved := 0, yielded := false, rest := 0, label := 0,
    after := 0, afterAll := 0, spawned := 0, got := [] }

/-- The trap frame (R23, R24). -/
structure TrapFrame where
  cause : Word
  pc : Addr
  mask : Word
  thread : Word
  telem : Word
  addr : Addr
  skid : Word
  count : Word
  deriving DecidableEq, Repr

/-- The frame at launch (R11). -/
def TrapFrame.launch : TrapFrame := ⟨0, 0, 0, 0, 0, 0, 0, 0⟩

/-- What an asynchronous fault is delivered at (R198, R299). -/
inductive Cover
  | channel (ch : Nat)
  | coll (tag : Nat)
  | batch (number : BitVec 16)
  /-- a launch's completion word, which no wave waits for (R327) -/
  | launch (id : Nat)
  deriving DecidableEq, Repr

/-- An undelivered asynchronous fault of a wave (R299); `bar` is the block barrier of a copy that names one, `rank` its place in
issue or matrix order. -/
structure AsyncFault where
  cover : Cover
  bar : Option (BitVec 4)
  cause : Cause
  addr : Addr
  rank : Nat
  deriving DecidableEq, Repr

/-- The reconvergence block (R240) with what a resume needs of the trapping slot (R300). -/
structure Block where
  slots : Vector PathSlot 2
  stack : List Entry
  spilled : Nat
  /-- the trapping slot -/
  trapSlot : Fin 2
  /-- the continuation point C -/
  cont : Addr
  /-- the operand-log entry of the trapping word -/
  entry : Option Nat
  /-- memory words from this number on are the handler's -/
  mark : Nat
  /-- the check code passes -/
  intact : Bool
  /-- the asynchronous fault that the trap delivered (R299) -/
  fault : Option AsyncFault
  /-- the number of the free bytes that stand for it in the save area, once it has been written there (R240) -/
  draw : Option Nat
  /-- the block barrier whose transaction overflow the trap delivered (R183) -/
  tx : Option Nat
  deriving DecidableEq, Repr

/-- Where a wave stands in a halt (R293–R298, R226). -/
inductive Halt
  | running
  /-- a halt has been broadcast and has not reached the wave -/
  | coming
  /-- the halt has reached it: words issued and clocks passed since -/
  | skid (words clocks : Nat)
  /-- stopped as a sibling -/
  | stopped
  /-- it has trapped, in a core clock, and waits for its siblings to stop -/
  | trapped (mask : Mask) (clock : Nat)
  | handler
  /-- stopped by HALT of a slot for the debug agent; in a handler its path state stays where it is -/
  | debug (slot : Fin 2) (inHandler : Bool)
  deriving DecidableEq, Repr

/-! ## Barriers -/

/-- A barrier (R178): phase, arrived threads of each wave (by the wave's key), .exp additions, transaction count, the
fuse of the phase and its contributions, and a transaction overflow not yet delivered (R183). -/
structure Barrier where
  phase : Nat
  arrived : List (Nat × Mask)
  exp : Nat
  tx : Int
  /-- FUSE, OP and RND of the phase's first arrival -/
  kind : Option (Option Fuse)
  parts : List Word
  overflow : Bool
  /-- a wave barrier: exited or dead threads of spawned waves that the wave supplied and that have not arrived in this phase by a word;
  they count for its .exp additions -/
  gone : Nat
  deriving DecidableEq, Repr

/-- A barrier at launch. -/
def Barrier.launch : Barrier := ⟨0, [], 0, 0, none, [], false, 0⟩

/-! ## Waves and work-groups -/

/-- A wave. -/
structure Wave where
  /-- the vector registers; the role declares how many of them it has -/
  regs : Vector Register 256
  /-- p0–p6 -/
  preds : Vector Mask 7
  /-- exited threads, and threads never launched (R129) -/
  exited : Mask
  /-- DEADM -/
  dead : Mask
  slots : Vector PathSlot 2
  /-- the reconvergence stack, newest first -/
  stack : List Entry
  /-- how many of the oldest entries lie in the spill region (R239) -/
  spilled : Nat
  /-- its block has failed its check at a resume: its next word raises ILLEGAL_CONVERGENCE (R240) -/
  badBlock : Bool
  /-- PATHS.DEADSRC -/
  deadsrc : Bool
  fpctl : Word
  frame : TrapFrame
  /-- the fault mask of the last trap (R292) -/
  faultMask : Mask
  block : Option Block
  halt : Halt
  /-- micro-batch tag (R190) -/
  tag : BitVec 3
  /-- batch counter and newest retired batch (R198) -/
  batch : BitVec 16
  retired : BitVec 16
  faults : List AsyncFault
  /-- OVFL bits of drained elements, by the batch they are set with (R69, R210) -/
  drainFlags : List (Nat × Word)
  /-- wave-level barriers (R177) -/
  bars : Vector Barrier 4
  /-- the phase of the wave's last arrival at each barrier, by its key (R179) -/
  lastArrival : List (Nat × Nat)
  /-- write pointers of the channels (R187) -/
  writePtr : Vector Word 8
  /-- the number of the wave among those its group has started; a wave launched from a bin never has that of an earlier one -/
  uid : Nat
  role : Fin 4
  /-- registers of a thread of the role -/
  regCount : Nat
  /-- core clock of placement or of the launch from a bin (R248) -/
  age : Nat
  spawned : Bool
  /-- a wave of 16 threads, in Z5 decode mode (R410) -/
  z5 : Bool
  /-- for a spawned wave, the number (`uid`) of the wave whose SPAWN supplied each thread (R177) -/
  origins : List Nat
  /-- spawned threads that the wave supplied and that have exited or died (R178) -/
  spawnGone : Nat
  ended : Bool
  /-- uncorrectable register elements (register, element) and predicate bits (predicate, thread) (R303) -/
  badElems : List (Nat × Nat)
  badPreds : List (Nat × Nat)
  /-- first wave-register of the wave in its partition's register file (R254) -/
  origin : Nat
  deriving DecidableEq, Repr

/-- The part of the image header a launch keeps (R403, R404). -/
structure Image where
  base : Addr
  codeOff : Nat
  codeLen : Nat
  /-- entry offset, registers per thread, waves; a role with 0 registers is absent -/
  roles : List (Nat × Nat × Nat)
  scratch : Nat
  argLen : Nat
  handler : Option Nat
  clusterN : Nat
  persistent : Bool
  matrix : Bool
  /-- decode mode: 0 native, 1 Z6, 2 Z5 -/
  mode : Nat
  dataOff : Nat
  dataLen : Nat
  deriving DecidableEq, Repr

/-- A stop of a work-group for pre-emption (R336–R338): pending while the group is held, else the engine classes that have
acknowledged; and when it began (R388). -/
structure Stop where
  waiting : Bool
  acked : List EngineClass
  since : Nat
  /-- the core clock at which its save slot was written, and the number of the free bytes in it (R337, R340) -/
  saved : Option (Nat × Nat)
  deriving DecidableEq, Repr

/-- A resident work-group: a context (R326). -/
structure Group where
  asid : BitVec 16
  part : Nat
  launch : Nat
  gang : Nat
  core : Nat
  /-- GRPX, GRPY, GRPZ and the grid extents -/
  grp : Vector Word 3
  ngrp : Vector Word 3
  gsize : Nat
  args : Addr
  /-- SAVE, and the group's slot (R339) -/
  savea : Addr
  slot : Nat
  priv : Bool
  test : Bool
  image : Image
  /-- where its part of the core's local scratchpad starts (R254), its bytes; an unlisted byte is 0 -/
  scratchBase : Nat
  scratch : List (Nat × Byte)
  badScratch : List Nat
  shapes : Vector (BitVec 512) 16
  lscale : Word
  ovfl : Word
  /-- the OVFL bits that an event has set in the core's present clock (R100) -/
  ovflNow : Word
  lscnt : BitVec 16
  bars : Vector Barrier 16
  /-- the waves by WAVE; a spawn-reserve slot not in use stands as an ended spawned wave of its role (R237) -/
  waves : List Wave
  /-- how many wave slots the group has; behind them stand ended waves that have work under way, or whose barriers spawned threads name -/
  waveSlots : Nat
  /-- how many waves the group has started: the next `uid` -/
  born : Nat
  /-- fabric time at which the held state began (R224) -/
  held : Option Nat
  /-- effective PODB in microseconds, and BINT in core clocks (R320) -/
  budget : Nat
  binInterval : Nat
  stop : Option Stop
  /-- the remote serial counter (R381) -/
  serial : Word
  deriving DecidableEq, Repr

/-! ## Memory words in flight -/

/-- The kinds of memory words (R162–R176). -/
inductive MemKind | load | store | ldu | stu | ld2s | mscmd | atom | red | cas
  deriving DecidableEq, Repr

/-- What a memory word asks, apart from its operands' values. -/
structure MemSpec where
  kind : MemKind
  space : Space
  /-- bytes of each thread's access -/
  size : Nat
  sx : Bool
  order : Order
  scope : Scope
  aop : Aop
  /-- registers written, lowest first -/
  dests : List Nat
  /-- full cover makes the result uniform (R244) -/
  uniform : Bool
  deriving DecidableEq, Repr

/-- A memory word that has issued and is not complete: parked in the operand log, or in flight (R161, R256, R257). -/
structure MemWord where
  ctx : Nat
  wave : Nat
  /-- the label of the path that issued it -/
  slot : Fin 2
  pc : Addr
  spec : MemSpec
  /-- its covered mask, and the threads whose addresses and values follow -/
  cov : Mask
  /-- effective address of each thread -/
  addrs : Vector Addr 32
  /-- the scratch addresses of LD2S, the byte masks of LDU and STU -/
  aux : Row
  /-- data operands, lowest register first -/
  data : List Row
  /-- the lays of its source registers (R257) -/
  lays : List LocMap
  /-- what TELEM names for each thread, and where the fault concerns the high half of an address pair alone (R42) -/
  telems : Row
  highs : Row
  /-- block barrier of an LD2S -/
  bar : Nat
  tag : BitVec 3
  /-- lanes applied (R174) or answered (R380), and the values they returned -/
  applied : Mask
  returns : Vector (BitVec 128) 32
  /-- threads whose returned bytes include uncorrectable data (R303) -/
  badLanes : Mask
  /-- tokens of the fault records it waits for -/
  tokens : List Nat
  /-- it is parked: it waits for its tokens, or for its give-up -/
  parked : Bool
  /-- the give-up that is due (R302): cause, offending threads, the lowest one's address -/
  gaveUp : Option (Cause × Mask × Addr)
  /-- the request has been performed and its data have not been delivered (R243) -/
  performed : Bool
  /-- its effects may leave the core (R307) -/
  left : Bool
  /-- core clock of its issue -/
  issued : Nat
  deriving DecidableEq, Repr

/-- A fault record (R359). -/
structure FaultRec where
  part : Nat
  asid : BitVec 16
  core : Nat
  va : Addr
  kind : BitVec 8
  /-- its index in the fault queue once written -/
  index : Option Nat
  deriving DecidableEq, Repr

/-- A cached leaf (R352): its address space, generation, first address, size and entry. -/
structure TlbEntry where
  asid : BitVec 16
  gen : BitVec 16
  va : Nat
  size : Nat
  leaf : BitVec 64
  /-- where the entry was read, and the frames it leads to -/
  addr : Nat
  frames : List Nat
  deriving DecidableEq, Repr

/-! ## The array and the engines -/

/-- An accumulator element (R20). -/
structure Elem where
  x : BitVec 96
  inexact : Bool
  overflow : Bool
  poison : Bool
  deriving DecidableEq, Repr

/-- An element at launch. -/
def Elem.zero : Elem := ⟨0, false, false, false⟩

/-- An accumulator tile (R20, R214); element (m, n) under key 256m + n; unlisted elements are zero. -/
structure Tile where
  elems : List (Nat × Elem)
  anchor : BitVec 9
  chk : Bool
  cc : List (Nat × Elem)
  rc : List (Nat × Elem)
  /-- uncorrectable elements, and an uncorrectable anchor (R303) -/
  bad : List Nat
  badAnchor : Bool
  deriving DecidableEq, Repr

/-- A tile at launch (R11). -/
def Tile.zero : Tile := ⟨[], 0, false, [], [], [], false⟩

/-- A stationary plane in logical order (R275): element (k, n) under key 256k + n, a trit or an effective integer; the SX
exponent of band b and column n under key 256b + n; column scales (unlisted: 1.0); row sums; format; poisoned columns. -/
structure Plane where
  elems : List (Nat × Int)
  exps : List (Nat × Nat)
  scales : List (Nat × Word)
  rowsums : List (Nat × Int)
  fmt : BitVec 3
  poisoned : List Nat
  /-- trits of physical rows out of service: element (physical row, physical column) under key 256r + c (R254, R271) -/
  idle : List (Nat × Int)
  deriving DecidableEq, Repr

/-- A plane at launch: zero trits in T5, scales 1.0 (R11, R208). -/
def Plane.zero : Plane := ⟨[], [], [], [], 0, [], []⟩

/-- An instruction in matrix order, with the operands it read at issue (R197). -/
inductive MatOp
  /-- a TLD whose image is not read yet: format, west, rows, columns, A, P, scale address -/
  | tld (fw : Word) (west : Bool) (nk nn : Nat) (a : Addr) (pitch : Word) (scale : Addr)
  /-- a TLD's swap, its image read into the shadow plane -/
  | swap
  /-- format word, tile, k offset, the 32 bytes and the header of each row, dead threads -/
  | mma (fw : Word) (tile : Nat) (k0 : Nat) (rows : List (List Byte × Word)) (dead : Mask)
  | mmas (fw : Word) (tile nt kc : Nat) (base : Word) (pitches : Word) (dead : Mask)
  | mmag (fw : Word) (tile nt kc : Nat) (base : Word) (pitches : Word) (dead : Mask) (counts : List Nat)
      (images : List Addr) (next : Nat)
  | aclr (fw : Word) (tile : Nat)
  | adrain (fw : Word) (tile : Nat) (coords : List Int) (shape : BitVec 512) (add : Bool)
  | ard (fw : Word) (tile : Nat) (raw : Bool) (n0 : Nat) (vd : Reg)
  | achk (fw : Word) (tile : Nat) (vd : Reg)
  | aflip (tile row col bit : Nat)
  deriving DecidableEq, Repr

/-- Progress of a matrix-order entry (R281). -/
inductive MatPhase
  | queued | begun | occupied | complete
  deriving DecidableEq, Repr

/-- An entry of a core's matrix order. -/
structure MatEntry where
  id : Nat
  ctx : Nat
  wave : Nat
  slot : Fin 2
  op : MatOp
  /-- the batch it joined: the number the open batch takes when it closes -/
  batch : BitVec 16
  phase : MatPhase
  /-- occupancy clocks of the group under way (R278) -/
  occ : Nat
  /-- the fault record it waits for, and the address it asked for (R360) -/
  token : Option Nat
  va : Addr
  tag : BitVec 3
  /-- what peers have given of the image it reads (R203) -/
  got : Given
  /-- MMAG: the group whose image stands in the shadow plane, read ahead (R284) -/
  ahead : Option Nat
  deriving DecidableEq, Repr

/-- A drain buffer in use (R286). -/
structure DrainBuf where
  ctx : Nat
  wave : Nat
  batch : BitVec 16
  rank : Nat
  tile : Tile
  scales : List (Nat × Word)
  coords : List Int
  shape : BitVec 512
  add : Bool
  /-- elements converted -/
  done : Nat
  /-- core clock in which the ADRAIN took the buffer (R307) -/
  since : Nat
  /-- the fault record it waits for, and the address it asked for (R360) -/
  token : Option Nat
  va : Addr
  tag : BitVec 3
  deriving DecidableEq, Repr

/-- What a copy command moves (R185, R191); a multicast reads its destinations with its first chunk. -/
inductive CopyKind
  | lin (dst src : Addr) (ss ds : Bool) (len : Nat)
  | load (shape : BitVec 512) (coords : List Int) (dst : Word)
  | store (shape : BitVec 512) (coords : List Int) (src : Word)
  | reduce (shape : BitVec 512) (coords : List Int) (src : Word)
  | multi (op : McOp) (list : Addr) (count : Nat) (dsts : List Addr) (src : Word) (len : Nat)
  deriving DecidableEq, Repr

/-- A copy command (R184–R187). -/
structure CopyCmd where
  id : Nat
  ctx : Nat
  wave : Nat
  ch : Nat
  bar : Option (BitVec 4)
  kind : CopyKind
  /-- bytes of the command's address order already moved -/
  done : Nat
  /-- core clock of its issue (R307) -/
  issued : Nat
  /-- the fault record it waits for, and the address it asked for (R360) -/
  token : Option Nat
  va : Addr
  tag : BitVec 3
  /-- what peers have given of a multicast's list (R191) -/
  got : Given
  deriving DecidableEq, Repr

/-- What is uncorrectable as a whole: a line of device or of host memory, or a word of a context's or a gang's scratchpad (R303). -/
inductive BadUnit
  | line (n : Nat)
  | host (n : Nat)
  | scratch (ctx word : Nat)
  | share (gang word : Nat)
  deriving DecidableEq, Repr

/-- Bytes, as a mask, that one command of an engine has put in a line or word that is uncorrectable: once it has put them all, the line or
word is overwritten whole (R303, R369). -/
structure Span where
  id : Nat
  unit : BadUnit
  bytes : Nat
  deriving DecidableEq, Repr

/-- A bin (R155, R235–R237): key, the wave of its first append, its threads with the number of the wave that supplied each, timer. -/
structure Bin where
  key : Addr
  ctx : Nat
  wave : Nat
  threads : List (Word × Word × Nat)
  timer : Nat
  launching : Bool
  /-- the core clock in which it was filled or its timer expired: it launches in a later one (R236) -/
  since : Nat
  /-- its place in launch order among the core's bins, once it launches (R237) -/
  order : Nat
  deriving DecidableEq, Repr

/-- A unit under test (R416). -/
structure TestRun where
  unit : UnitRef
  /-- the slot whose STEST waits for it, with the destination and cover -/
  waiter : Option (SlotRef × Reg × Mask)
  deriving DecidableEq, Repr

/-- An event for the cast record, before its time and SEQ (R422). -/
structure Event where
  cls : Nat
  cause : Nat
  addr : BitVec 64 := 0
  data : Word := 0
  ctxid : Nat := 0
  part : Nat := 0
  core : Nat := 0xFF
  wave : Nat := 0
  thread : Nat := 0
  /-- it names a partition: ADDR and DATA are private (R423) -/
  priv : Bool := false
  deriving DecidableEq, Repr

/-- What a word is to make known outside its core (R307, R308). -/
inductive Post
  /-- an event of the cast record -/
  | event (e : Event)
  /-- an arrival at a cluster or grid barrier: its phase, the wave's key, its threads, the fuse and what they contribute to it -/
  | arrival (level : Level) (home index phase key : Nat) (threads : Mask) (fuse : Option Fuse) (vals : List Word)
  /-- threads of a wave, by the wave's number in its group, that have exited or died: cluster and grid barriers expect them no more (R178) -/
  | gone (ctx uid : Nat) (threads : Mask)
  /-- a work-group ended by a kill, with the RESULT and CAUSE of its launch (R334) -/
  | killed (ctx result cause : Nat)
  deriving DecidableEq, Repr

/-- The issue ports of a scheduler partition; a pair word takes both VALUs (R246). -/
inductive IssuePort | valu | pair | lsu | ube
  deriving DecidableEq, Repr

/-- A core. -/
structure Core where
  ratio : BitVec 4
  clock : BitVec 64
  /-- clocks of the cluster that have passed on the core, in 840ths (R6) -/
  elapsed : Nat
  /-- the context that owns the array (R13) -/
  owner : Option Nat
  tiles : Vector Tile 4
  active : Plane
  shadow : Plane
  /-- TAASTAT (R223) and the retired physical rows (R274) -/
  spares : Nat
  orgR : BitVec 8
  orgC : BitVec 8
  retiredRows : List Nat
  arrayRetired : Bool
  queue : List MatEntry
  buffers : Vector (Option DrainBuf) 2
  /-- parked words and words in flight, by number (R256, R257) -/
  log : List (Nat × MemWord)
  reqs : List (Nat × MemWord)
  /-- effects that have not left the core yet, oldest first, each with the core clock of its word (R307) -/
  posts : List (Nat × Post)
  bins : List Bin
  copies : List CopyCmd
  spans : List Span
  /-- lay table of each scheduler partition, most recently used first (R36, R249) -/
  layTables : Vector (List LocMap) 4
  /-- VALU passes left of each partition's reservation (R252) -/
  passes : Vector Nat 4
  /-- the present core clock: partitions that have chosen their words, words that have issued, each with its port (R238, R246, R248) -/
  turns : List Nat
  issued : List (SlotRef × IssuePort)
  tlb : List TlbEntry
  /-- instruction-cache words: address space, address, word (R406) -/
  icache : List (BitVec 16 × Addr × BitVec 64)
  /-- resident L1 lines (R253, R166, R167) -/
  l1 : List Nat
  /-- core clocks of issue stop left after a rollback (R414), and times of recent strikes in ns -/
  stopLeft : Nat
  strikes : List Nat
  /-- retired register banks: partition × 8 + bank (R234) -/
  retiredBanks : List Nat
  /-- wave-registers and local scratchpad bytes that no resident group holds (R254): the words by 32768 × partition + 32 × wave-register +
  element, the bytes by offset; unlisted ones are 0 (R12) -/
  freeRegs : List (Nat × Word)
  freeScratch : List (Nat × Byte)
  /-- the spare scratch bank is in use; the scratchpad is retired (R417) -/
  scratchSpare : Bool
  scratchRetired : Bool
  retired : Bool
  failedSensors : List Nat
  /-- fabric time of the last ordinary ratio change, and of the last step down of a hot core (R427) -/
  ratioAt : Option Nat
  thermalAt : Option Nat
  /-- register banks and array rows with a lasting fault that wait to be retired (R274, R417) -/
  bankFaults : List Nat
  rowFaults : List Nat
  deriving DecidableEq, Repr

/-- A core after a partition reset: the values R1, R11, R23, R223, R271 give; the ratio is the model's (log entry 13). -/
def Core.reset : Core :=
  { ratio := 8, clock := 0, elapsed := 0, owner := none, tiles := Vector.replicate 4 Tile.zero, active := Plane.zero,
    shadow := Plane.zero, spares := 0, orgR := 0, orgC := 0, retiredRows := [], arrayRetired := false, queue := [],
    buffers := Vector.replicate 2 none, log := [], reqs := [], posts := [], bins := [], copies := [],
    spans := [], layTables := Vector.replicate 4 [], passes := Vector.replicate 4 0, turns := [], issued := [], tlb := [], icache := [], l1 := [],
    stopLeft := 0, strikes := [], retiredBanks := [], freeRegs := [], freeScratch := [], scratchSpare := false, scratchRetired := false, retired := false,
    failedSensors := [], ratioAt := none, thermalAt := none, bankFaults := [], rowFaults := [] }

/-! ## Clusters -/

/-- An event of the cast record (R422). -/
structure CastEvent where
  time : Nat
  addr : BitVec 64
  data : Word
  ctxid : Word
  part : Nat
  enc : Bool
  core : Nat
  wave : Nat
  thread : Nat
  cause : Nat
  cls : Nat
  seq : BitVec 8
  deriving DecidableEq, Repr

/-- Reservation classes, highest first (R428). -/
inductive ResClass | drain | copy | vector | matrix
  deriving DecidableEq, Repr

/-- A request that waits for the arbiter (R252, R428): class, core, the partition of the core or the number of the command or instruction
that asks, charge in nJ, cluster clock. -/
structure Reservation where
  cls : ResClass
  core : Nat
  part : Nat
  charge : Nat
  since : Nat
  /-- classes gained by waiting -/
  up : Nat
  deriving DecidableEq, Repr

/-- An in-field test (R419, R420). -/
inductive FieldTest
  | none
  /-- due since a fabric time in ns -/
  | due (since : Nat)
  /-- under way; `paused` when groups are resident; restarts so far -/
  | run (paused : Bool) (restarts : Nat)
  deriving DecidableEq, Repr

/-- A cluster. -/
structure Cluster where
  clock : Nat
  /-- the ring, newest first, at most 2,048 -/
  cast : List CastEvent
  castHead : BitVec 64
  frozen : Bool
  pwrlim : BitVec 16
  /-- the cluster is hot: LIMIT is halved (R427) -/
  hot : Bool
  grace : BitVec 16
  testint : BitVec 8
  idleOnly : Bool
  lanesRetired : Nat
  banksRetired : Nat
  charges : List (Nat × Nat)
  waiting : List Reservation
  /-- granted requests not yet used -/
  granted : List Reservation
  /-- added eighths of the clock period (R426) -/
  stretch : Nat
  sagging : Bool
  fieldTest : FieldTest
  lastTest : Nat
  /-- times of corrected errors, by unit (R416) -/
  corrected : List (UnitRef × Nat)
  scratchSpare : Bool
  scratchRetired : Bool
  /-- bytes of the cluster scratchpad that no resident gang holds (R254); unlisted ones are 0 -/
  freeScratch : List (Nat × Byte)
  /-- cluster firmware: running version, staged image (R431) -/
  firmware : Nat
  staged : Option FwImage
  deriving DecidableEq, Repr

/-- A cluster after cold reset (R422, R432). -/
def Cluster.reset : Cluster :=
  { clock := 0, cast := [], castHead := 0, frozen := false, pwrlim := 0x8000, hot := false, grace := 60, testint := 6,
    idleOnly := false, lanesRetired := 0, banksRetired := 0, charges := [], waiting := [],
    granted := [], stretch := 0, sagging := false, fieldTest := .none, lastTest := 0, corrected := [],
    scratchSpare := false, scratchRetired := false, freeScratch := [], firmware := 0, staged := none }

/-! ## Partitions, launches -/

/-- TDISP interface states (R371). -/
inductive Tdi | unlocked | locked | run | error
  deriving DecidableEq, Repr

/-- An SPDM session of the device or of a TDI (R372): requester, whether FINISH has been received, key updates. -/
structure Session where
  requester : Nat
  finished : Bool
  updates : Nat
  heartbeats : Nat
  deriving DecidableEq, Repr

/-- An SPDM connection of the device or of a TDI: how far negotiation has come (R372). -/
inductive Spdm | start | version | capabilities | algorithms
  deriving DecidableEq, Repr

/-- A partition (R367, R368, R370). -/
structure Partition where
  clusters : BitVec 32
  asidFirst : Nat
  asidCount : Nat
  keys : BitVec 64
  primary : BitVec 6
  /-- the key ID that its memory was last scrubbed under (R369, R373) -/
  formed : BitVec 6
  root : Addr
  grantPriv : Bool
  grantTest : Bool
  legacy : BitVec 2
  /-- peer-table entries; unlisted ones are 0 (R378) -/
  peers : List (Nat × BitVec 64)
  asdBase : BitVec 64
  pstat : BitVec 4
  tdi : Tdi
  /-- STOP_INTERFACE has come in ERROR: the reset under way ends in CONFIG_UNLOCKED (R371, R373) -/
  stopAsked : Bool
  spdm : Spdm
  sessions : List (Nat × Session)
  /-- firmware-set attributes of nodes: node, PRIV, TEST (R193, R319) -/
  attrs : List (Addr × Bool × Bool)
  /-- nodes rung and not yet taken (R324), with the time each was rung -/
  bells : List (Nat × Nat)
  /-- bells taken: node, the TAIL read, the bell's time, oldest first (R324, R328) -/
  visible : List (Nat × Nat × Nat)
  /-- nothing has happened since the distributor's last decision point (R328) -/
  idle : Bool
  /-- quarantined table blocks: block address, lines not yet overwritten (R366) -/
  quarantine : List (Nat × List Nat)
  /-- number of the record key in use; a reset destroys it, and the next takes its place (R423) -/
  recordKey : Nat
  /-- a machine check was raised on the error vector (R366): count -/
  machineChecks : Nat
  deriving DecidableEq, Repr

/-- A partition before the operator configures it: registers at reset (R368, R378), no cluster, no key (log entry 14). -/
def Partition.reset : Partition :=
  { clusters := 0, asidFirst := 0, asidCount := 0, keys := 0, primary := 0, formed := 0, root := 0, grantPriv := false,
    grantTest := false, legacy := 0, peers := [], asdBase := 0, pstat := 0, tdi := .unlocked, stopAsked := false, spdm := .start,
    sessions := [], attrs := [], bells := [], visible := [], idle := true, quarantine := [], recordKey := 0, machineChecks := 0 }

/-- A region control block as memory holds it (R319). -/
abbrev Rcb := BitVec 1024

/-- A launch instance (R326–R334). -/
structure Launch where
  part : Nat
  /-- address of the RCB, and the RCB as the launch took it -/
  node : Nat
  rcb : Rcb
  /-- the launch record, or the template of a graph child -/
  record : BitVec 512
  image : Image
  asid : BitVec 16
  /-- the node and its ancestors, each with its effective CLQ, REGQ and SCRQ (R320, R330) -/
  path : List (Nat × Nat × Nat × Nat)
  /-- effective priority, PODB, BINT and attributes (R320) -/
  prio : Nat
  podb : Nat
  bint : Nat
  priv : Bool
  test : Bool
  /-- when the doorbell made it visible (R328), in ns; levels gained by waiting -/
  visible : Nat
  aged : Nat
  /-- groups placed, groups in all, groups ended -/
  placed : Nat
  total : Nat
  ended : Nat
  /-- RESULT and CAUSE once it is to end other than completed -/
  verdict : Option (Nat × Nat)
  /-- places no further gang (R334) -/
  closed : Bool
  /-- the fault record its completion word waits for (R327) -/
  token : Option Nat
  /-- the graph launch it is a child of, and which node of the snapshot it runs -/
  parent : Option (Nat × Nat)
  /-- a graph: its snapshot, each node below it with its address, RCB and template (R333) -/
  children : List (Nat × Rcb × BitVec 512)
  /-- a graph: nodes of the snapshot started, and the RESULT and CAUSE of those completed -/
  started : List Nat
  results : List (Nat × Nat × Nat)
  deriving DecidableEq, Repr

/-- A gang: the work-groups of one cluster launch, one persistent grid, or one ordinary group (R329). -/
structure Gang where
  launch : Nat
  members : List Nat
  /-- linear numbers of its first group and how many groups -/
  first : Nat
  count : Nat
  /-- placement is complete: its groups may issue (R330) -/
  ready : Bool
  cluster : Option Nat
  /-- cluster scratchpad share in bytes, where it starts in the cluster's scratchpad (R254), and its bytes -/
  share : Nat
  shareBase : Nat
  scratch : List (Nat × Byte)
  /-- uncorrectable words of the share (R303) -/
  badScratch : List Nat
  clusterBars : Vector Barrier 8
  gridBars : Vector Barrier 4
  deriving DecidableEq, Repr

/-- A saved group (R339–R344): its cluster-relative core and its wave, bin, log, matrix and engine state. -/
structure SavedGroup where
  ctx : Nat
  group : Group
  coreIndex : Nat
  owned : Bool
  tiles : Vector Tile 4
  active : Plane
  shadow : Plane
  queue : List MatEntry
  buffers : Vector (Option DrainBuf) 2
  log : List (Nat × MemWord)
  reqs : List (Nat × MemWord)
  bins : List Bin
  copies : List CopyCmd
  /-- the number of the free bytes in its save slot (R340) -/
  draw : Nat
  deriving DecidableEq, Repr

/-- A pre-empted gang with its saved groups (R339–R344). -/
structure SavedGang where
  gang : Gang
  groups : List SavedGroup
  deriving DecidableEq, Repr

/-! ## The fabric -/

/-- A cleat entry (R382). -/
structure CleatEntry where
  serial : Word
  pair : PairId
  kind : Nat
  stamp : Word
  result : BitVec 64
  addr : BitVec 40
  /-- the lane met uncorrectable data: its answer says so again (R303; log entry 95) -/
  bad : Bool
  deriving DecidableEq, Repr

/-- What a port keeps of a requester pair (R383). -/
structure PairRec where
  pair : PairId
  floor : Word
  lastHeard : Nat
  lastAbandon : Option Nat
  deriving DecidableEq, Repr

/-- A lane of a port: in service or not; times of its steps down; its wear: steps either way, flits lost, eye margin at its last test
(R391, R421). -/
structure LinkLane where
  retired : Bool
  steps : List Nat
  count : Nat
  lost : Nat
  margin : Nat
  deriving DecidableEq, Repr

/-- A lane that has never stepped. -/
def LinkLane.new : LinkLane := ⟨false, [], 0, 0, 0⟩

/-- What leaves the device: requests, answers, queries, frames to the host or the operator. -/
inductive Sent
  | request (op : Nat) (dev : BitVec 12) (part : BitVec 5) (req : FabricReq)
  | reply (port : Nat) (pair : PairId) (serial : Option Word) (answer : FabricAnswer) (epoch : Word) (frame : Seal)
  | query (port : Nat) (pair : PairId) (frame : Seal)
  | watermark (ctx port : Nat) (wm : Word) (frame : Seal)
  /-- a slice of a sprayed message on a spray port: a quarter on ports 0–3, their XOR on port 4 (R393) -/
  | slice (port : Nat) (message : Sent)
  /-- a flit of a frame that a port sends again, by its place in the frame (R390) -/
  | flit (port : Nat) (frame : Sent) (n : Nat)
  | mmioWrite (addr : Nat) (data : List (Option Byte))
  /-- the data of a host read, and whether they are poisoned -/
  | hostRead (data : List Byte) (bad : Bool)
  /-- a register of BAR 0 or BAR 2 read by the host -/
  | register (value : BitVec 64)
  /-- an MSI-X message of a TDI (R366, R376) -/
  | msix (part vector : Nat)
  /-- Unsupported Request (R371) -/
  | unsupported
  /-- an answer of the SPDM responder -/
  | spdm (who : Responder) (what : Nat) (body : List Nat)
  /-- a cast record read over the management port or the mailbox, or inside a session of a TDI (R424) -/
  | record (cluster : Nat) (head : BitVec 64) (events : List CastEvent) (signature : BitVec 256) (session : Option (Nat × Nat))
  /-- a partition's record key released inside a session with its TDI (R423) -/
  | recordKey (part session key : Nat)
  deriving DecidableEq, Repr

/-- A fabric port, or the splice. -/
structure Port where
  cleat : List CleatEntry
  pairs : List PairRec
  /-- Gb/s of a lane: 224, 168 or 112 -/
  rate : Nat
  lanes : List LinkLane
  /-- its lanes retrain since a fabric time in ns (R391) -/
  retraining : Option Nat
  /-- every lane test since the last step has passed, and there was one (R391) -/
  passed : Bool
  /-- flits of the replay buffer, newest first, each by its frame and its place in it; frames held while retraining, oldest first (R390,
  R391) -/
  replay : List (Sent × Nat)
  held : List Sent
  deriving DecidableEq, Repr

/-- A port of some lanes after boot. -/
def Port.ofLanes (n : Nat) : Port := ⟨[], [], 224, List.replicate n LinkLane.new, none, false, [], []⟩

/-- A fabric port after boot (R390). -/
def Port.reset : Port := Port.ofLanes 4

/-- Where an outstanding remote operation stands: not sent yet behind an earlier write, sent, or ended without effect known
(R380, R386). -/
inductive RemoteState | queued | waiting | denied | indeterminate | unmapped | poisoned
  deriving DecidableEq, Repr

/-- A lane of a remote operation, outstanding (R380, R385). -/
structure RemoteOp where
  ctx : Nat
  core : Nat
  wave : Nat
  /-- the label of the path that issued it -/
  slot : Fin 2
  thread : Nat
  pc : Addr
  /-- the number of the word or command that sent it, and the lane's byte it starts at -/
  word : Nat
  off : Nat
  /-- the engine cover it belongs to, when a command issued it -/
  cover : Option Cover
  /-- the COLL it belongs to -/
  coll : Option Nat
  serial : Option Word
  window : Nat
  addr : BitVec 40
  va : Addr
  op : FabricOp
  epoch : Word
  firstSent : Nat
  lastSent : Nat
  /-- transmissions so far -/
  sends : Nat
  interval : Nat
  status : RemoteState
  telem : Word
  /-- generation of the address space under which it was translated (R361); none once a wrap has rejected it (R363) -/
  gen : Option (BitVec 16)
  deriving DecidableEq, Repr

/-- Link keys of a partition pair and direction, by partition and window; the firmware's keys of key ID 0 have no partition, and stand by
the peer's device ID (R392). -/
structure LinkKey where
  part : Option Nat
  window : Nat
  outbound : Bool
  index : Nat
  /-- outbound: frames sealed; inbound: one above the highest counter accepted -/
  counter : Nat
  /-- inbound: counters accepted, and frames discarded -/
  seen : List Nat
  discarded : Nat
  deriving DecidableEq, Repr

/-- A COLL at work (R192, R394–R399). -/
structure Coll where
  id : Nat
  ctx : Nat
  wave : Nat
  core : Nat
  tag : Nat
  record : BitVec 512
  /-- READYA has reached READY -/
  ready : Bool
  /-- SRC and RESID have been read -/
  started : Bool
  /-- elements this rank contributes; `none` is poisoned (R303) -/
  own : List (Option Word)
  /-- the residuals it is to write to RESID (R397) -/
  left : List (Option Word)
  /-- bytes of SRC whose contributions have been sent and whose residuals have been written -/
  sent : Nat
  /-- contributions to this rank's chunk: rank, first element, elements -/
  parts : List (Nat × Nat × List (Option Word))
  /-- stretches of this rank's chunk that have been stored to ranks, in order -/
  stores : Nat
  /-- this rank's chunk has been stored to the ranks -/
  summed : Bool
  /-- bytes of DST already written, by the first one and their count -/
  written : List (Nat × Nat)
  /-- the ring backing selected at its issue (R190), and the core clock of the issue (R307) -/
  backing : BitVec 3
  issued : Nat
  /-- the fault record it waits for, and the address it asked for (R360) -/
  token : Option Nat
  va : Addr
  /-- what peers have given of what it reads now -/
  got : Given
  deriving DecidableEq, Repr

/-- A generation bump under way (R362). -/
structure Bump where
  asid : Nat
  part : Nat
  /-- the twin leaf that a PUBL publishes with it: the partition physical address of its entry (R358) -/
  publishes : Option Nat
  /-- the GENBUMP that waits, with its destination and cover -/
  waiter : Option (SlotRef × Reg × Mask)
  deriving DecidableEq, Repr

/-- Device states (R432). -/
inductive DevState | booting | running | fatal | recovery
  deriving DecidableEq, Repr

/-- What moves next. -/
inductive Move
  /-- the slot issues its next word -/
  | word (slot : SlotRef)
  /-- another agent's row of the table, at a fabric time in ns -/
  | event (at_ : Nat) (i : Instr)
  deriving DecidableEq, Repr

/-- A core's state 0–40 core clocks ago (R306). -/
structure Snapshot where
  coreNo : Nat
  clock : BitVec 64
  core : Core
  groups : List (Nat × Group)
  deriving DecidableEq, Repr

/-- The device. -/
structure State where
  /-- device memory by channel × 1.5 GiB + channel offset; an unlisted byte is 0 -/
  mem : List Host.Cell
  /-- host memory by PA[47:0]; an unlisted byte is 0 (log entry 10) -/
  hostMem : List Host.Cell
  /-- key ID each 64-byte line was last written under, where it is not the one its partition was last scrubbed under (R369) -/
  lineKeys : List (Nat × Nat)
  /-- uncorrectable lines of device memory (by line), and poisoned lines of host memory -/
  badLines : List Nat
  badHost : List Nat
  /-- resident home-slice lines (R166, R167) -/
  homeLines : List Nat
  /-- current generation of each ASID; unlisted ones are 0 (R361, R373) -/
  gens : List (Nat × BitVec 16)
  bumps : List Bump
  cores : Vector Core 192
  clusters : Vector Cluster 32
  parts : Vector Partition 32
  groups : List (Nat × Group)
  gangs : List (Nat × Gang)
  launches : List (Nat × Launch)
  saved : List (Nat × SavedGang)
  faultRecs : List (Nat × FaultRec)
  /-- the CTXID count (R326) and the contexts that ended, with the time of their end -/
  ctxCount : Word
  ctxEnded : List (Nat × Nat)
  ports : Vector Port 12
  remote : List (Nat × RemoteOp)
  linkKeys : List LinkKey
  /-- messages sprayed over the spray ports, by number, each with the time it was sent (R393) -/
  sprays : List (Nat × Sent × Nat)
  colls : List (Nat × Coll)
  /-- results of peers that were stored before their COLL was issued here: partition, CID, first byte of DST, bytes (R399) -/
  early : List (Nat × Nat × Nat × Nat)
  splice : Port
  /-- units under test (R416) -/
  tests : List TestRun
  devId : BitVec 12
  devState : DevState
  /-- the SPDM connection and the sessions of the device's own responder (R372) -/
  spdm : Spdm
  sessions : List (Nat × Session)
  clusterSel : BitVec 5
  /-- EPOCH, floors of the Ecinzel, control-core and cluster firmware, running versions of the Ecinzel firmware and of the
  control cores of dies 0 and 1, staged images (R430, R431) -/
  epoch : Word
  floors : Vector Nat 3
  versions : Vector Nat 3
  staged : List FwImage
  /-- trim of the part (R429, R430) -/
  trim : BitVec 64
  /-- fabric time in ns -/
  now : Nat
  /-- the model's own: what moves next, the issuing slot, whether other agents' work stays queued -/
  agenda : List Move
  cur : Option SlotRef
  deferred : Bool
  /-- the model's own: how many free values have been drawn, the next number for a new record, what has left -/
  fresh : Nat
  nextId : Nat
  sent : List Sent
  history : List Snapshot
  /-- the model's own: an access met a device address its partition does not have (partition, address) -/
  beyond : Option (Nat × Nat)
  deriving DecidableEq, Repr

/-- The device right after reset (R11, R326, R361, R368, R390, R422, R432; log entries 1–3, 10, 13, 14). -/
def State.reset : State :=
  { mem := [], hostMem := [], lineKeys := [], badLines := [], badHost := [], homeLines := [], gens := [], bumps := [],
    cores := Vector.replicate 192 Core.reset, clusters := Vector.replicate 32 Cluster.reset,
    parts := Vector.replicate 32 Partition.reset, groups := [], gangs := [], launches := [], saved := [],
    faultRecs := [], ctxCount := 1, ctxEnded := [], ports := Vector.replicate 12 Port.reset, remote := [],
    linkKeys := [], sprays := [], colls := [], early := [], splice := Port.ofLanes 64, tests := [], devId := 0, devState := .booting, spdm := .start, sessions := [],
    clusterSel := 0, epoch := 0, floors := Vector.replicate 3 0, versions := Vector.replicate 3 0, staged := [], trim := 0,
    now := 0, agenda := [], cur := none, deferred := true, fresh := 0, nextId := 0, sent := [], history := [],
    beyond := none }

end Sys2Proof.Machine
end

