-- ==== Sys2Proof/Machine/Sparse.lean ====
section
/-! DEFINITION. Keyed lists in their one canonical form, and memory over them: the named operations every access goes through. -/

namespace Sys2Proof.Machine

/-- The value under a key. -/
def Map.find {α : Type} : List (Nat × α) → Nat → Option α
  | [], _ => none
  | (j, v) :: rest, k => if k = j then some v else Map.find rest k

/-- The list with a key's value set, its keys rising. -/
def Map.insert {α : Type} : List (Nat × α) → Nat → α → List (Nat × α)
  | [], k, v => [(k, v)]
  | (j, w) :: rest, k, v =>
    if k < j then (k, v) :: (j, w) :: rest
    else if k = j then (k, v) :: rest
    else (j, w) :: Map.insert rest k v

/-- The list without a key. -/
def Map.erase {α : Type} (m : List (Nat × α)) (k : Nat) : List (Nat × α) := m.filter (fun p => p.1 != k)

/-- The value under a key changed, if there is one. -/
def Map.modify {α : Type} (m : List (Nat × α)) (k : Nat) (f : α → α) : List (Nat × α) :=
  m.map (fun p => if p.1 = k then (p.1, f p.2) else p)

/-- The value under a key, the default where none is listed. -/
def Map.get {α : Type} (m : List (Nat × α)) (k : Nat) (d : α) : α := (Map.find m k).getD d

/-- The list with a key's value set, unlisted where it is the default. -/
def Map.set {α : Type} [DecidableEq α] (m : List (Nat × α)) (k : Nat) (v d : α) : List (Nat × α) :=
  if v = d then Map.erase m k else Map.insert m k v

/-- Keys strictly rising. -/
def Map.sorted {α : Type} : List (Nat × α) → Bool
  | [] => true
  | [_] => true
  | (i, _) :: (j, w) :: rest => decide (i < j) && Map.sorted ((j, w) :: rest)

/-- The canonical form of a memory: addresses strictly rising, no entry equal to what an unlisted byte reads as. -/
def Memory.wf (m : List Host.Cell) : Bool := Map.sorted m && m.all (fun p => p.2 != 0)

/-- What an unlisted byte reads as: zero (R373, R429; log entry 10). -/
def Memory.unlisted : Byte := 0

/-- One byte of memory. -/
def Memory.read (m : List Host.Cell) (a : Nat) : Byte := Map.get m a Memory.unlisted

/-- One byte written. -/
def Memory.write (m : List Host.Cell) (a : Nat) (b : Byte) : List Host.Cell := Map.set m a b Memory.unlisted

/-- `n` bytes from an address up. -/
def Memory.readBytes (m : List Host.Cell) (a n : Nat) : List Byte := (List.range n).map (fun i => Memory.read m (a + i))

/-- Bytes written from an address up. -/
def Memory.writeBytes (m : List Host.Cell) (a : Nat) : List Byte → List Host.Cell
  | [] => m
  | b :: bs => Memory.writeBytes (Memory.write m a b) (a + 1) bs

/-- The number of bytes in little-endian order (R5). -/
def leNat (bs : List Byte) : Nat := bs.foldr (fun b n => n * 256 + b.toNat) 0

/-- An element of a vector by a number; the default out of range. -/
def vget {α : Type} {n : Nat} (v : Vector α n) (i : Nat) (d : α) : α := v[i]?.getD d

/-- An element of a vector changed; nothing out of range. -/
def vmod {α : Type} {n : Nat} (v : Vector α n) (i : Nat) (f : α → α) : Vector α n :=
  match v[i]? with
  | some x => v.setIfInBounds i (f x)
  | none => v

/-- Numbers kept rising, without repeats. -/
def insertNat (k : Nat) : List Nat → List Nat
  | [] => [k]
  | j :: rest => if k < j then k :: j :: rest else if k = j then j :: rest else j :: insertNat k rest

/-- Bits `hi … lo` of a number. -/
def bits (x : Nat) (hi lo : Nat) : Nat := x / 2 ^ lo % 2 ^ (hi + 1 - lo)

end Sys2Proof.Machine
end

