-- ==== Sys2Proof/Machine/Operands.lean ====
section
/-! DEFINITION. Operand forms: registers through their lays, cover, agreed operands, the result lay of R38, map edits. -/

namespace Sys2Proof.Machine

/-! ## Registers and lays (R29–R35) -/

/-- A register of a wave. -/
def Wave.reg (w : Wave) (r : Nat) : Register := vget w.regs r Register.launch

/-- A register replaced. -/
def Wave.setReg (w : Wave) (r : Nat) (x : Register) : Wave := { w with regs := w.regs.setIfInBounds r x }

/-- The identity lay of the wave: VOID for the parked threads of a Z5 wave (R410). -/
def Wave.ident (w : Wave) : LocMap :=
  if w.z5 then Vector.ofFn (fun t => if t.val < 16 then some t else none) else LocMap.identity

/-- The base of a register (R30). -/
def Wave.baseOf (w : Wave) (r : Nat) : Nat := (w.reg r).base.getD r

/-- The lay is identity: its own base and the identity entries. -/
def Wave.isIdentity (w : Wave) (r : Nat) : Bool := (w.reg r).base.isNone && (w.reg r).loc == w.ident

/-- Thread `t` reads register `r` (R29). -/
def Wave.read (w : Wave) (r : Nat) (t : Lane) : Word :=
  match (w.reg r).loc[t] with
  | none => 0
  | some e => (w.reg (w.baseOf r)).elems[e]

/-- What every thread reads of a register. -/
def Wave.readRow (w : Wave) (r : Nat) : Row := Vector.ofFn (fun t => w.read r t)

/-- The 64-bit value of a pair (R15, R91 `read64`). -/
def Wave.read64 (w : Wave) (r : Nat) (t : Lane) : BitVec 64 := w.read (r + 1) t ++ w.read r t

/-- The register leaves its base's borrower list. -/
def Wave.unborrow (w : Wave) (r : Nat) : Wave :=
  match (w.reg r).base with
  | none => w
  | some b => w.setReg b { w.reg b with borrowers := (w.reg b).borrowers.filter (fun x => x != r) }

/-- The uncorrectable elements of a register (R303). -/
def Wave.badOf (w : Wave) (r : Nat) : List Nat := (w.badElems.filter (fun b => b.1 == r)).map Prod.snd

/-- The elements of a register's storage that are uncorrectable set anew. -/
def Wave.setBad (w : Wave) (r : Nat) (bad : List Nat) : Wave :=
  { w with badElems := w.badElems.filter (fun b => b.1 != r) ++ bad.map (fun e => (r, e)) }

/-- A register takes contents, some of them uncorrectable, and a lay, and borrows nothing. -/
def Wave.install (w : Wave) (r : Nat) (elems : Row) (loc : LocMap) (tag : Tag) (bad : List Nat) : Wave :=
  let w1 := (w.unborrow r).setBad r bad
  w1.setReg r { w1.reg r with elems := elems, base := none, loc := loc, tag := tag }

/-- The threads to which a register's lay gives an uncorrectable element. -/
def Wave.badLanes (w : Wave) (r : Nat) : List Nat :=
  ((List.finRange 32).filter (fun t => match (w.reg r).loc[t] with
    | none => false
    | some e => w.badElems.contains (w.baseOf r, e.val))).map Fin.val

/-- Materialise one register (R34); its borrowers, if it has any, are the caller's. -/
def Wave.materialiseOne (w : Wave) (r : Nat) : Wave := w.install r (w.readRow r) w.ident (w.reg r).tag (w.badLanes r)

/-- Materialise-on-overwrite: every borrower of a register, oldest first (R35). -/
def Wave.freeBorrowers (w : Wave) (r : Nat) : Wave := (w.reg r).borrowers.foldl Wave.materialiseOne w

/-- Re-lay a register to identity, its borrowers first (R34, R35, R137). -/
def Wave.materialise (w : Wave) (r : Nat) : Wave :=
  if w.isIdentity r then w else (w.freeBorrowers r).materialiseOne r

/-! ## Cover -/

/-- Pred `p` of thread `t`; p7 is true (R17). -/
def Wave.pred (w : Wave) (p : PredNo) (t : Lane) : Bool :=
  if p = 7 then true else Mask.has (vget w.preds p.toNat 0) t

/-- The mask of a predicate. -/
def Wave.predMask (w : Wave) (p : PredNo) : Mask := if p = 7 then BitVec.allOnes 32 else vget w.preds p.toNat 0

/-- Write bits of a predicate for the threads of a mask; writes to p7 are discarded (R17, R91 `setp`). -/
def Wave.setPred (w : Wave) (p : PredNo) (cov value : Mask) : Wave :=
  { w with
    preds := vmod w.preds p.toNat (fun m => (m &&& ~~~cov) ||| (value &&& cov))
    badPreds := w.badPreds.filter (fun b => !(b.1 == p.toNat && cov.getLsbD b.2)) }

/-- The threads whose guard predicate holds (R73). -/
def Wave.guardMask (w : Wave) (g : Guard) : Mask := if g.gn then ~~~(w.predMask g.gp) else w.predMask g.gp

/-- Threads neither exited nor dead (R41). -/
def Wave.alive (w : Wave) : Mask := ~~~(w.exited ||| w.dead)

/-- The active mask of a slot. -/
def Wave.exec (w : Wave) (k : Fin 2) : Mask := w.slots[k].exec

/-- The covered threads of a word of a slot (R16). -/
def Wave.cover (w : Wave) (k : Fin 2) (g : Guard) : Mask := w.exec k &&& w.guardMask g

/-- A mask covers fully (R16). -/
def Wave.full (w : Wave) (cov : Mask) : Bool := w.alive &&& ~~~cov == 0

/-- A path slot changed. -/
def Wave.setSlot (w : Wave) (k : Fin 2) (f : PathSlot → PathSlot) : Wave := { w with slots := w.slots.set k (f w.slots[k]) }

/-- The slot has issued its word and goes on at an address (R248, R152). -/
def Wave.goTo (w : Wave) (k : Fin 2) (pc : Addr) : Wave :=
  w.setSlot k (fun p => { p with pc := pc, wait := none, starved := 0, yielded := false, spawned := 0, got := [] })

/-- The slot goes on at its next word. -/
def Wave.advance (w : Wave) (k : Fin 2) : Wave := w.goTo k (w.slots[k].pc + 8)

/-- The slot keeps its word, which issues again when what it waits for is there. -/
def Wave.stallAt (w : Wave) (k : Fin 2) (why : Wait) : Wave := w.setSlot k (fun p => { p with wait := some why, starved := 0 })

/-! ## Agreed operands (R91) -/

/-- The threads of a mask whose value differs from that of its lowest thread. -/
def dissent {α : Type} [DecidableEq α] (cov : Mask) (f : Lane → α) : Mask :=
  Mask.ofPred (fun t => Mask.has cov t && decide (f t ≠ f (Mask.lowest cov)))

/-- TELEM through a register's entry for a thread (R28, R42). -/
def Wave.telem (w : Wave) (r : Nat) (t : Lane) : Word :=
  match (w.reg r).loc[t] with
  | none => 0x80000000
  | some e => BitVec.ofNat 32 (w.baseOf r * 32 + e.val)

/-- TELEM with NOEL set (R28). -/
def noElem : Word := 0x80000000

/-- A trap attributed to the lowest thread of its mask, with no element and no address. -/
def Trap.of (cause : Cause) (mask : Mask) : Trap := ⟨cause, mask, Mask.lowest mask, noElem, 0⟩

/-- A trap that names a register operand through its lowest offending thread (R42). -/
def Trap.named (w : Wave) (cause : Cause) (mask : Mask) (r : Nat) (addr : Addr) : Trap :=
  ⟨cause, mask, Mask.lowest mask, w.telem r (Mask.lowest mask), addr⟩

/-- The register of an address pair that a fault of the address names: the high one where the bits at fault are its alone (R42; log entry 68). -/
def pairReg (va : Reg) (high : Bool) : Nat := if high then va.toNat + 1 else va.toNat

/-- The agreed 32-bit value of a register, or the trap of the dissenters (R91 `agree`). -/
def Wave.agree (w : Wave) (cov : Mask) (r : Nat) : Except Trap Word :=
  if dissent cov (w.read r) = 0 then .ok (w.read r (Mask.lowest cov))
  else .error (Trap.of .illegalConvergence (dissent cov (w.read r)))

/-- The agreed 64-bit value of a pair. -/
def Wave.agree64 (w : Wave) (cov : Mask) (r : Nat) : Except Trap (BitVec 64) :=
  if dissent cov (w.read64 r) = 0 then .ok (w.read64 r (Mask.lowest cov))
  else .error (Trap.of .illegalConvergence (dissent cov (w.read64 r)))

/-! ## Results (R16, R38, R244) -/

/-- What one thread's operation gives: the value of each destination, and whether it is an FINV or FOVF event (R27). -/
structure Outs where
  vals : List Word
  inv : Bool := false
  ovf : Bool := false
  deriving DecidableEq, Repr

/-- What an instruction computes of its sources. -/
structure AluOp where
  dests : List Nat
  srcs : List Nat
  /-- the sources' common entries may be kept: not SEL, not IADDC with CI (R38) -/
  keep : Bool
  /-- the tag of a fully covered result, from the sources' tags (R244) -/
  rule : List Tag → Tag
  /-- the operation: the thread (for predicate operands) and the source values -/
  f : Lane → List Word → Outs

/-- The sources that are compared (R38 step 2). -/
def Wave.compared (w : Wave) (srcs : List Nat) : List Nat := srcs.filter (fun r => (w.reg r).tag != .uniform)

/-- The entries common to the compared sources (R38 step 3). -/
def Wave.commonLay (w : Wave) (srcs : List Nat) : Option LocMap :=
  match w.compared srcs with
  | [] => none
  | r :: rest => if rest.all (fun q => (w.reg q).loc == (w.reg r).loc) then some (w.reg r).loc else none

/-- The values a fully covered result computes for element `e`: a uniform source gives its one value, any other the element
of its base (R38 step 3, R40). -/
def Wave.elemOf (w : Wave) (r : Nat) (e : Lane) : Word :=
  if (w.reg r).tag == .uniform then w.read r (Mask.lowest w.alive) else (w.reg (w.baseOf r)).elems[e]

/-- The destination's new contents, with the lay and tag it takes; computed before any destination is written. -/
structure Write where
  reg : Nat
  elems : Row
  loc : LocMap
  tag : Tag
  /-- elements left as they were that are uncorrectable -/
  bad : List Nat
  deriving DecidableEq, Repr

/-- Materialisations that precede the write: borrowers of each destination (R38 step 1), and under partial cover a destination
whose lay is not identity (step 4). -/
def Wave.prepareDests (w : Wave) (cov : Mask) (dests : List Nat) : Wave :=
  dests.foldl (fun w d =>
    let w1 := w.freeBorrowers d
    if w1.full cov then w1 else w1.materialise d) w

/-- The uncorrectable elements of a register of threads that are not covered. -/
def Wave.badOutside (w : Wave) (cov : Mask) (r : Nat) : List Nat := (w.badOf r).filter (fun e => !cov.getLsbD e)

/-- An element that a lay gives to threads that have exited or died, and to no other: they own it still, and it is not written (R41). -/
def Wave.keepsElem (w : Wave) (loc : LocMap) (e : Lane) : Bool :=
  (List.finRange 32).any (fun t => loc[t] == some e) && !(Mask.lanes w.alive).any (fun t => loc[t] == some e)

/-- The uncorrectable elements of a result that keeps its sources' entries: those kept, and unowned ones computed from uncorrectable
data, which no thread reads (R38, R303). -/
def Wave.badKept (w : Wave) (loc : LocMap) (srcs : List Nat) (d : Nat) : List Nat :=
  ((List.finRange 32).filter (fun e =>
    if w.keepsElem loc e then (w.badOf d).contains e.val
    else (w.compared srcs).any (fun r => (w.badOf (w.baseOf r)).contains e.val))).map Fin.val

/-- The writes of an instruction with its sources in the wave as prepared (R38, R41, R244). -/
def Wave.aluWrites (w : Wave) (cov : Mask) (op : AluOp) : List Write :=
  let full := w.full cov
  let tag := if full then op.rule (op.srcs.map (fun r => (w.reg r).tag)) else .none
  match (if full && op.keep then w.commonLay op.srcs else none) with
  | some loc =>
    op.dests.zipIdx.map (fun (d, i) =>
      ⟨d, Vector.ofFn (fun e =>
        if w.keepsElem loc e then (w.reg d).elems[e] else ((op.f e (op.srcs.map (fun r => w.elemOf r e))).vals)[i]?.getD 0),
       loc, tag, w.badKept loc op.srcs d⟩)
  | none =>
    op.dests.zipIdx.map (fun (d, i) =>
      ⟨d, Vector.ofFn (fun t =>
        if Mask.has cov t then ((op.f t (op.srcs.map (fun r => w.read r t))).vals)[i]?.getD 0 else (w.reg d).elems[t]),
       w.ident, tag, w.badOutside cov d⟩)

/-- The writes performed. -/
def Wave.commit (w : Wave) (ws : List Write) : Wave :=
  ws.foldl (fun w x => w.install x.reg x.elems x.loc x.tag x.bad) w

/-- The OVFL bits the covered threads' operations set: FINV at 3, FOVF at 2 (R27). -/
def Wave.aluFlags (w : Wave) (cov : Mask) (op : AluOp) : Word :=
  let outs := (Mask.lanes cov).map (fun t => op.f t (op.srcs.map (fun r => w.read r t)))
  (if outs.any (fun o => o.inv) then 8 else 0) ||| (if outs.any (fun o => o.ovf) then 4 else 0)

/-- A register result of covered threads; an instruction that covers no thread changes nothing (R16). -/
def Wave.alu (w : Wave) (cov : Mask) (op : AluOp) : Wave :=
  if cov = 0 then w
  else
    let w1 := w.prepareDests cov op.dests
    w1.commit (w1.aluWrites cov op)

/-- A per-thread value written to covered threads with the identity lay (R91 `write`, R138, R140, R142). -/
def Wave.writeLanes (w : Wave) (cov : Mask) (vd : Nat) (tag : Tag) (f : Lane → Word) : Wave :=
  w.alu cov ⟨[vd], [], false, fun _ => tag, fun t _ => ⟨[f t], false, false⟩⟩

/-! ## Map edits (R31–R33, R131) -/

/-- The entry a map edit gives a thread, and whether it reads a dead source. -/
def Wave.editEntry (w : Wave) (vs : Nat) (src : Option Lane) : Option Lane × Bool :=
  match src with
  | none => (none, false)
  | some q =>
    if Mask.has w.exited q then (none, false)
    else if Mask.has w.dead q then (none, true)
    else ((w.reg vs).loc[q], false)

/-- The sources of an edit, none for exited and dead destination threads (R131). -/
def Wave.editSource (w : Wave) (s : Lane → Option Lane) (t : Lane) : Option Lane :=
  if Mask.has w.alive t then s t else none

/-- Borrower-list steps before an edit installs its lay (R32). -/
def Wave.joinBase (w : Wave) (vd base : Nat) : Wave :=
  let w1 := if vd = base then w else w.freeBorrowers vd
  if vd = base then w1.unborrow vd
  else if (w1.reg vd).base = some base then w1
  else
    let w2 := w1.unborrow vd
    let w3 :=
      if (w2.reg base).borrowers.length ≥ 7 then
        match (w2.reg base).borrowers with
        | [] => w2
        | oldest :: _ => w2.materialiseOne oldest
      else w2
    w3.setReg base { w3.reg base with borrowers := (w3.reg base).borrowers ++ [vd] }

/-- A map edit: with full cover the lay alone (R31, R32), otherwise a data move (R33). Where step 4 materialises `vs` itself, the oldest of
seven borrowers, the base and the entries of `vs` are those it had before (log entry 69). -/
def Wave.mapEdit (w : Wave) (cov : Mask) (vd vs : Nat) (s : Lane → Option Lane) : Wave :=
  if cov = 0 then w
  else
    let src := w.editSource s
    if w.full cov then
      let entries : LocMap := Vector.ofFn (fun t => (w.editEntry vs (src t)).1)
      let hitDead := (List.finRange 32).any (fun t => (w.editEntry vs (src t)).2)
      let base := w.baseOf vs
      let tag := match (w.reg vs).tag with
        | .uniform => if (List.finRange 32).all (fun t => !Mask.has w.alive t || entries[t].isSome) then Tag.uniform else .none
        | .none => .none
        | .affine => .none
      let w1 := w.joinBase vd base
      let w2 := w1.setReg vd { w1.reg vd with base := if vd = base then none else some base, loc := entries, tag := tag }
      { w2 with deadsrc := w2.deadsrc || hitDead }
    else
      let value (t : Lane) : Word :=
        match src t with
        | none => 0
        | some q => if Mask.has w.exited q || Mask.has w.dead q then 0 else w.read vs q
      let hitDead := (Mask.lanes cov).any (fun t => (w.editEntry vs (src t)).2)
      let w1 := (w.materialise vd).freeBorrowers vd
      let row := Vector.ofFn (fun t => if Mask.has cov t then value t else (w1.reg vd).elems[t])
      let w2 := w1.install vd row w1.ident .none (w1.badOutside cov vd)
      { w2 with deadsrc := w2.deadsrc || hitDead }

end Sys2Proof.Machine
end

