-- ==== Sys2Proof/Machine/Paths.lean ====
section
/-! DEFINITION. Path slots and the reconvergence stack of one wave (R145–R151, R239, R304, R434). -/

namespace Sys2Proof.Machine

/-- The owner tag of a slot's own entries. -/
def ownerOf (k : Fin 2) : Owner := if k = 0 then .slot0 else .slot1

/-- The other slot. -/
def otherSlot (k : Fin 2) : Fin 2 := if k = 0 then 1 else 0

/-- The other slot is live. -/
def Wave.otherLive (w : Wave) (k : Fin 2) : Bool := w.slots[otherSlot k].live

/-- The owner of an entry. -/
def Entry.owner : Entry → Owner
  | .diverge o _ _ _ _ => o
  | .call o _ => o

/-- The entry with another owner. -/
def Entry.setOwner (o : Owner) : Entry → Entry
  | .diverge _ pc m j u => .diverge o pc m j u
  | .call _ r => .call o r

/-- Entries held on chip: PATHS.DEPTH (R25, R239). -/
def Wave.onChip (w : Wave) : Nat := w.stack.length - w.spilled

/-- The position of the slot's visible top: its newest own entry, else the newest shared one (R145). -/
def Wave.topIndex (w : Wave) (k : Fin 2) : Option Nat :=
  match w.stack.findIdx? (fun e => e.owner == ownerOf k) with
  | some i => some i
  | none => w.stack.findIdx? (fun e => e.owner == .shared)

/-- The slot's visible top. -/
def Wave.top (w : Wave) (k : Fin 2) : Option Entry := (w.topIndex k).bind (fun i => w.stack[i]?)

/-- The slot owns an entry. -/
def Wave.owns (w : Wave) (k : Fin 2) : Bool := w.stack.any (fun e => e.owner == ownerOf k)

/-- The owner a push takes: the slot if the other is live, or a shared entry (R147, R150, R434). -/
def Wave.pushOwner (w : Wave) (k : Fin 2) : Owner := if w.otherLive k then ownerOf k else .shared

/-- A push; it spills the oldest eight when 32 are on chip (R145, R239). -/
def Wave.push (w : Wave) (e : Entry) : Wave :=
  { w with
    spilled := if w.onChip ≥ Config.stackOnChip then w.spilled + 8 else w.spilled
    stack := e :: w.stack }

/-- The stack is full (R145). -/
def Wave.stackFull (w : Wave) : Bool := decide (Config.stackMax ≤ w.stack.length)

/-- An entry removed, on chip or spilled; a pop that leaves none on chip reads back the newest eight spilled (R239). -/
def Wave.popAt (w : Wave) (i : Nat) : Wave :=
  let stack := w.stack.eraseIdx i
  let spilled := min (if w.onChip ≤ i then w.spilled - 1 else w.spilled) stack.length
  { w with stack := stack, spilled := if spilled = stack.length then spilled - 8 else spilled }

/-- An entry replaced. -/
def Wave.setEntry (w : Wave) (i : Nat) (e : Entry) : Wave := { w with stack := w.stack.set i e }

/-- Threads of a mask that are neither exited nor dead. -/
def Wave.living (w : Wave) (m : Mask) : Mask := m &&& w.alive

/-- Where the memory words so far, numbered below `n`, come before every later access of the slot: those of its own path (R266). -/
def PathSlot.behind (p : PathSlot) (n : Nat) : PathSlot := { p with after := n }

/-- The same for the words of both paths of the wave. -/
def PathSlot.behindAll (p : PathSlot) (n : Nat) : PathSlot := { p with after := n, afterAll := n }

/-- A lone slot at its pair join: it goes on and the join is dropped (R148, R434); the memory words of both paths below `n` come before
its later ones (R266). -/
def PathSlot.mergedAlone (p : PathSlot) (j : Addr) (n : Nat) : PathSlot :=
  PathSlot.behindAll { p with pc := j + 8, pair := none, wait := none, starved := 0, yielded := false } n

/-- The slot ends while the other lives, or alone (R151 step 3, R434). -/
def Wave.endSlot (w : Wave) (k : Fin 2) (n : Nat) : Wave :=
  if w.otherLive k then
    let kept := w.stack.filter (fun e => e.owner != ownerOf k)
    let stack := kept.map (fun e => if e.owner == ownerOf (otherSlot k) then e.setOwner .shared else e)
    let gone := ((w.stack.drop (w.stack.length - w.spilled)).filter (fun e => e.owner == ownerOf k)).length
    let survivor := w.slots[otherSlot k]
    let survivor :=
      match survivor.wait, survivor.pair with
      | some .join, some j => survivor.mergedAlone j n
      | _, _ => survivor
    { w with slots := #v[survivor, PathSlot.empty], stack := stack, spilled := w.spilled - gone }
  else
    { w with slots := #v[PathSlot.empty, PathSlot.empty], ended := true }

/-- The label of the other path. -/
def otherLabel (l : Fin 2) : Fin 2 := if l = 0 then 1 else 0

/-- What a JOIN or an emptied slot does with a divergence entry at the slot's top (R148 cases 2 and 3): the pending side, or
the union and a pop; `none` when the entry is no divergence entry. Dead and exited threads leave the masks as they are used. The memory
words of the path numbered below `n` come before its later ones (R266). -/
def Wave.takeEntry (w : Wave) (k : Fin 2) (i n : Nat) : Option Wave :=
  match w.stack[i]? with
  | some (.diverge o pc m j u) =>
    if w.living m ≠ 0 then
      some ((w.setEntry i (.diverge o pc 0 j u)).setSlot k (fun p => PathSlot.behind { p with exec := w.living m, pc := pc, wait := none, spawned := 0, got := [] } n))
    else
      some ((w.popAt i).setSlot k (fun p => PathSlot.behind { p with exec := w.living u, pc := j + 8, wait := none, spawned := 0, got := [] } n))
  | _ => none

/-- A slot whose EXEC has become empty (R151 steps 1–3), for at most `fuel` entries; `next` is the word after the one it issued last.
Where its top divergence entry has the address of its pair join as join, step 2 takes the entry: R151 speaks of the entry, and R148
lists the pair join first (log entry 61). -/
def Wave.settleSlot (fuel : Nat) (w : Wave) (k : Fin 2) (next : Addr) (n : Nat) : Wave :=
  if w.exec k ≠ 0 then w
  else if w.slots[k].hold ≠ 0 then
    w.setSlot k (fun p => { p with exec := p.hold, hold := 0, pc := next, wait := none, spawned := 0, got := [] })
  else
    match fuel with
    | 0 => w.endSlot k n
    | fuel + 1 =>
      match (w.topIndex k).bind (fun i => w.takeEntry k i n) with
      | some w1 => w1.settleSlot fuel k next n
      | none => w.endSlot k n

/-- The steps of R151 for an emptied slot; each entry is used at most twice. -/
def Wave.emptied (w : Wave) (k : Fin 2) (next : Addr) (n : Nat) : Wave := Wave.settleSlot (2 * w.stack.length + 1) w k next n

/-- The slot has issued the word its pc names and waits for its end. -/
def Wait.issued : Wait → Bool
  | .stall | .fetch _ _ | .gaveUp _ _ => false
  | .join | .barrier _ _ _ _ | .sleep _ | .matrix _ | .tile _ | .bump _ | .test _ => true

/-- The word a slot goes on at when its threads are killed away from issue. -/
def PathSlot.following (p : PathSlot) : Addr := if p.wait.any Wait.issued then p.pc + 8 else p.pc

/-- Threads leave the wave: their EXEC and HOLD bits clear (R151, R304). -/
def Wave.drop (w : Wave) (gone : Mask) : Wave :=
  { w with slots := w.slots.map (fun p => { p with exec := p.exec &&& ~~~gone, hold := p.hold &&& ~~~gone }) }

/-- Threads exit (R151). -/
def Wave.exitThreads (w : Wave) (gone : Mask) : Wave := Wave.drop { w with exited := w.exited ||| gone } gone

/-- A live slot that has emptied takes the steps of an exit (R304). -/
def Wave.settleKill (w : Wave) (k : Fin 2) (next : Addr) (n : Nat) : Wave :=
  if w.slots[k].live && w.exec k == 0 then w.emptied k next n else w

/-- Threads are killed (R304); `at_` is the slot whose issuing word consumed, if the kill comes at issue. -/
def Wave.kill (w : Wave) (gone : Mask) (at_ : Option (Fin 2)) (n : Nat) : Wave :=
  let w1 := Wave.drop { w with dead := w.dead ||| (gone &&& w.alive) } gone
  let next (k : Fin 2) : Addr := if at_ = some k then w.slots[k].pc + 8 else w.slots[k].following
  (w1.settleKill 1 (next 1) n).settleKill 0 (next 0) n

/-- A handler's path state stands in the wave's slots: it runs, or has stopped in HALT (R226, R297). -/
def Wave.handling (w : Wave) : Bool :=
  match w.halt with
  | .handler => true
  | .debug _ inHandler => inHandler
  | .running | .coming | .skid _ _ | .stopped | .trapped _ _ => false

/-- A change of the wave's slots from outside, applied to the slots a halted wave has set aside as well (R240, R296). -/
def Wave.everySlot (f : Wave → Wave) (w : Wave) : Wave :=
  match w.block with
  | none => f w
  | some b =>
    let w1 := if w.handling then f w else w
    let w2 := f { w1 with slots := b.slots }
    { w2 with
      block := w1.block.map (fun b => { b with slots := w2.slots })
      slots := if w.handling then w1.slots else w2.slots }

/-- Both slots wait at one pair join: they merge into slot 0 (R148), and the memory words below `n` come before its later ones (R266). -/
def Wave.merge (w : Wave) (n : Nat) : Wave :=
  let a := w.slots[(0 : Fin 2)]
  let b := w.slots[(1 : Fin 2)]
  match a.pair with
  | none => w
  | some j =>
    { w with
      slots := #v[PathSlot.behindAll { a with exec := w.living (a.exec ||| b.exec), hold := 0, pc := j + 8, pair := none, wait := none } n,
        PathSlot.empty] }

/-- A lone slot at its pair join merges alone, as slot 0 (R148, R434). -/
def Wave.mergeAlone (w : Wave) (k : Fin 2) (j : Addr) (n : Nat) : Wave :=
  { w with slots := #v[w.slots[k].mergedAlone j n, PathSlot.empty] }

end Sys2Proof.Machine
end

