-- ==== Sys2Proof/Machine/Access.lean ====
section
/-! DEFINITION. Access to the parts of the state: the issuing slot, waves, groups, cores, clusters, partitions; free values;
the cast record. -/

namespace Sys2Proof.Machine

/-- The slot that issues a word, with its wave and group. -/
structure Here where
  ctx : Nat
  g : Group
  wv : Nat
  w : Wave
  k : Fin 2
  deriving DecidableEq, Repr

/-- The slot number as an index. -/
def slotIx (n : Nat) : Fin 2 := if n = 0 then 0 else 1

/-- The wave and group of a slot reference, if the slot is live. -/
def State.slotAt (s : State) (r : SlotRef) : Option Here :=
  match Map.find s.groups r.ctx with
  | none => none
  | some g =>
    match g.waves[r.wave]? with
    | none => none
    | some w => if w.slots[slotIx r.slot].live then some ⟨r.ctx, g, r.wave, w, slotIx r.slot⟩ else none

/-- The issuing slot. -/
def State.here (s : State) : Option Here :=
  match s.cur with
  | none => none
  | some r => s.slotAt r

/-- A group changed. -/
def State.modGroup (s : State) (ctx : Nat) (f : Group → Group) : State := { s with groups := Map.modify s.groups ctx f }

/-- A wave of a group replaced. -/
def Group.setWave (g : Group) (wv : Nat) (w : Wave) : Group := { g with waves := g.waves.set wv w }

/-- A wave changed. -/
def State.modWave (s : State) (ctx wv : Nat) (f : Wave → Wave) : State :=
  s.modGroup ctx (fun g => { g with waves := g.waves.modify wv f })

/-- The issuing wave replaced. -/
def State.putWave (s : State) (h : Here) (w : Wave) : State := s.modGroup h.ctx (fun g => g.setWave h.wv w)

/-- A core. -/
def State.core (s : State) (c : Nat) : Core := vget s.cores c Core.reset

/-- A core changed. -/
def State.modCore (s : State) (c : Nat) (f : Core → Core) : State := { s with cores := vmod s.cores c f }

/-- What was done in a core clock is old enough to leave the core (R307). -/
def State.aged (s : State) (core since : Nat) : Bool := decide (since + Config.strikeWindow ≤ (s.core core).clock.toNat)

/-- A cluster. -/
def State.cluster (s : State) (c : Nat) : Cluster := vget s.clusters c Cluster.reset

/-- A cluster changed. -/
def State.modCluster (s : State) (c : Nat) (f : Cluster → Cluster) : State := { s with clusters := vmod s.clusters c f }

/-- A partition. -/
def State.part (s : State) (p : Nat) : Partition := vget s.parts p Partition.reset

/-- A partition changed. -/
def State.modPart (s : State) (p : Nat) (f : Partition → Partition) : State := { s with parts := vmod s.parts p f }

/-- The cluster of a core (R1). -/
def clusterOf (core : Nat) : Nat := core / Config.coresPerCluster

/-- The partition holds a cluster. -/
def Partition.hasCluster (p : Partition) (c : Nat) : Bool := p.clusters.getLsbD c

/-- The clusters of a partition, ascending. -/
def Partition.clusterList (p : Partition) : List Nat := (List.range Config.clusters).filter p.hasCluster

/-- The cores of a partition in ascending CORE order: its channels 0 … Nch − 1 (R355). -/
def Partition.coreList (p : Partition) : List Nat :=
  (List.range Config.cores).filter (fun c => p.hasCluster (clusterOf c))

/-- The partition a core belongs to. -/
def State.partOfCore (s : State) (core : Nat) : Option Nat :=
  (List.range 32).find? (fun p => (s.part p).hasCluster (clusterOf core))

/-- The partition owns a key ID (R370). -/
def Partition.ownsKey (p : Partition) (key : Nat) : Bool := p.keys.getLsbD key || (p.clusters != 0 && key == p.primary.toNat)

/-- The current generation of an ASID (R361). -/
def State.gen (s : State) (asid : Nat) : BitVec 16 := Map.get s.gens asid 0

/-- The number of the next free value, drawn. -/
def State.draw (s : State) : State := { s with fresh := s.fresh + 1 }

/-- The number of the next record, taken. -/
def State.takeId (s : State) : State := { s with nextId := s.nextId + 1 }

/-- What leaves the device. -/
def State.send (s : State) (x : Sent) : State := { s with sent := x :: s.sent }

/-- ADDR and DATA encrypted with a stream (R423). -/
def Event.seal (e : Event) (pad : BitVec 96) : Event :=
  { e with addr := e.addr ^^^ pad.extractLsb' 32 64, data := e.data ^^^ pad.extractLsb' 0 32 }

/-- An event enters a cluster's ring, unless the ring is frozen (R422, R425). -/
def Cluster.record (c : Cluster) (now : Nat) (e : Event) : Cluster :=
  if c.frozen then c
  else
    { c with
      cast := (⟨now, e.addr, e.data, BitVec.ofNat 32 e.ctxid, e.part, e.priv, e.core, e.wave, e.thread, e.cause, e.cls,
        c.castHead.setWidth 8⟩ :: c.cast).take Config.castEntries
      castHead := c.castHead + 1 }

/-- An event enters the ring of a cluster (R422). -/
def State.cast (s : State) (cluster : Nat) (e : Event) : State :=
  s.modCluster cluster (fun c => c.record s.now
    (if e.priv then e.seal (Config.recordPad e.part (s.part e.part).recordKey cluster s.now (c.castHead.toNat % 256)) else e))

/-- An effect of a word that leaves its core once it is 40 core clocks old (R307); at once where nothing stays queued. -/
def State.post (s : State) (core : Nat) (p : Post) (now : State → State) : State :=
  if s.deferred then s.modCore core (fun c => { c with posts := c.posts ++ [(c.clock.toNat, p)] }) else now s

/-- An event of a core's group (R307, R422). -/
def State.castGroup (s : State) (ctx : Nat) (g : Group) (e : Event) : State :=
  let x := { e with ctxid := ctx, part := g.part, core := g.core, priv := true }
  s.post g.core (.event x) (fun s => s.cast (clusterOf g.core) x)

/-- An event of a partition that belongs to no cluster: the ring of its lowest-numbered cluster (R422). -/
def State.castPart (s : State) (p : Nat) (e : Event) : State :=
  match (s.part p).clusterList with
  | [] => s
  | c :: _ => s.cast c { e with part := p, priv := true }

/-- The code of a trap cause (R290). -/
def Cause.code : Cause → Nat
  | .none => 0x00 | .illegalOpcode => 0x01 | .illegalBundle => 0x02 | .privilege => 0x03 | .misaligned => 0x04
  | .pageFault => 0x05 | .permission => 0x06 | .translationPoison => 0x07 | .illegalConvergence => 0x08
  | .formatDivergence => 0x09 | .formatIllegal => 0x0A | .tritCode => 0x0B | .barrierMisuse => 0x0C
  | .remoteIndeterminate => 0x0D | .engineShape => 0x0E | .software => 0x0F | .breakpoint => 0x10
  | .uncorrectable => 0x11 | .siblingHalt => 0x12

/-- The first code word of a group's image in its address space (R403). -/
def Image.code (i : Image) : Addr := i.base + BitVec.ofNat 64 i.codeOff

/-- A cluster under an in-field test neither issues words nor moves its engines (R419, R420). -/
def FieldTest.stops : FieldTest → Bool
  | .none | .due _ => false
  | .run _ _ => true

/-- The engines of a core move. -/
def State.coreUp (s : State) (c : Nat) : Bool := s.devState == .running && !(s.cluster (clusterOf c)).fieldTest.stops

/-- The gang of a group. -/
def State.gangOf (s : State) (g : Group) : Option Gang := Map.find s.gangs g.gang

/-- A gang changed. -/
def State.modGang (s : State) (i : Nat) (f : Gang → Gang) : State := { s with gangs := Map.modify s.gangs i f }

/-- The groups resident on a core. -/
def State.onCore (s : State) (c : Nat) : List (Nat × Group) := s.groups.filter (fun g => g.2.core == c)

end Sys2Proof.Machine
end

