-- ==== Sys2Proof/Machine/Float.lean ====
section
/-! DEFINITION. Floating point: formats, exact values, the one rounding, and each operation's result and events (R46–R53). -/

namespace Sys2Proof.Machine

/-- A binary format: significand bits with the hidden one, and exponent bits. -/
structure FpFmt where
  p : Nat
  w : Nat
  deriving DecidableEq, Repr

/-- FP32 (R46). -/
def FpFmt.f32 : FpFmt := ⟨24, 8⟩
/-- BF16 (R51). -/
def FpFmt.bf16 : FpFmt := ⟨8, 8⟩
/-- FP16 (R51). -/
def FpFmt.f16 : FpFmt := ⟨11, 5⟩

/-- The exponent bias. -/
def FpFmt.bias (F : FpFmt) : Int := 2 ^ (F.w - 1) - 1
/-- The exponent of the smallest spacing. -/
def FpFmt.qmin (F : FpFmt) : Int := 1 - F.bias - (F.p - 1 : Nat)
/-- The pattern of an infinity's magnitude. -/
def FpFmt.inf (F : FpFmt) : Nat := (2 ^ F.w - 1) * 2 ^ (F.p - 1)
/-- The canonical NaN (R48). -/
def FpFmt.nan (F : FpFmt) : Nat := F.inf + 2 ^ (F.p - 2)
/-- The sign bit. -/
def FpFmt.signBit (F : FpFmt) : Nat := 2 ^ (F.w + F.p - 1)

/-- A value read from a format: `fin neg m e` is ± m × 2^e. -/
inductive Num
  | nan
  | inf (neg : Bool)
  | fin (neg : Bool) (m : Nat) (e : Int)
  deriving DecidableEq, Repr

/-- The value of a pattern. -/
def FpFmt.num (F : FpFmt) (x : Nat) : Num :=
  let neg := decide (x / F.signBit % 2 = 1)
  let mag := x % F.signBit
  let frac := mag % 2 ^ (F.p - 1)
  let ex := mag / 2 ^ (F.p - 1)
  if mag > F.inf then .nan
  else if mag = F.inf then .inf neg
  else if ex = 0 then .fin neg frac F.qmin
  else .fin neg (frac + 2 ^ (F.p - 1)) (F.qmin + (ex - 1 : Nat))

/-- A pattern is a nonzero subnormal. -/
def FpFmt.subnormal (F : FpFmt) (x : Nat) : Bool :=
  decide (0 < x % F.signBit) && decide (x % F.signBit < 2 ^ (F.p - 1))

/-- A pattern with its sign. -/
def FpFmt.withSign (F : FpFmt) (neg : Bool) (mag : Nat) : Nat := if neg then mag + F.signBit else mag

/-- The magnitude goes up by one unit: by the mode, the sign, the unit's oddness, and the remainder against half (R45, R47). -/
def roundsUp (mode : Rnd) (neg odd : Bool) (rem half : Nat) (sticky : Bool) : Bool :=
  match mode with
  | .rne => decide (rem > half) || (decide (rem = half) && (sticky || odd))
  | .rtz => false
  | .rdn => neg && (decide (rem > 0) || sticky)
  | .rup => !neg && (decide (rem > 0) || sticky)

/-- m × 2^(−shift), rounded to an integer magnitude; a sticky part lies strictly between 0 and one unit of m. -/
def shiftRound (mode : Rnd) (neg : Bool) (m : Nat) (shift : Int) (sticky : Bool) : Nat :=
  if shift ≤ 0 then
    if sticky && !(match mode with | .rne => true | .rtz => true | .rdn => !neg | .rup => neg)
    then m * 2 ^ shift.natAbs + 1 else m * 2 ^ shift.natAbs
  else
    let d := 2 ^ shift.natAbs
    let n := m / d
    if roundsUp mode neg (n % 2 == 1) (m % d) (d / 2) sticky then n + 1 else n

/-- What a magnitude beyond the largest finite value becomes (R47). -/
def FpFmt.overflow (F : FpFmt) (mode : Rnd) (neg : Bool) : Nat :=
  match mode, neg with
  | .rne, _ | .rdn, true | .rup, false => F.withSign neg F.inf
  | .rtz, _ | .rdn, false | .rup, true => F.withSign neg (F.inf - 1)

/-- The real ± m × 2^e (plus a sticky part) rounded once: the pattern, and whether it passed the largest finite value (R47), which is the
FOVF event of R123, R126 and R143. -/
def FpFmt.round (F : FpFmt) (mode : Rnd) (neg : Bool) (m : Nat) (e : Int) (sticky : Bool := false) : Nat × Bool :=
  if m = 0 && !sticky then (F.withSign neg 0, false)
  else
    let top : Int := e + (Nat.log2 m : Int)
    let q := max (top - (F.p - 1 : Nat)) F.qmin
    let n := shiftRound mode neg m (q - e) sticky
    let (n, q) := if n = 2 ^ F.p then (2 ^ (F.p - 1), q + 1) else (n, q)
    if n < 2 ^ (F.p - 1) then (F.withSign neg n, false)
    else
      let ex := (q - F.qmin).toNat + 1
      if ex ≥ 2 ^ F.w - 1 then (F.overflow mode neg, true)
      else (F.withSign neg (ex * 2 ^ (F.p - 1) + (n - 2 ^ (F.p - 1))), false)

/-- What an operation writes, and its events (R48). -/
structure FpOut where
  bits : Nat
  inv : Bool := false
  ovf : Bool := false
  deriving DecidableEq, Repr

/-- The exact sum of finite terms, rounded once; zero sums by R49 and R143. -/
def FpFmt.sumFin (F : FpFmt) (mode : Rnd) (xs : List (Bool × Nat × Int)) : FpOut :=
  let e := xs.foldl (fun e x => min e x.2.2) 0
  let total : Int := xs.foldl (fun s x => s + (if x.1 then -1 else 1) * (x.2.1 * 2 ^ (x.2.2 - e).natAbs : Nat)) 0
  if total = 0 then
    let neg :=
      if xs.all (fun x => x.1 && x.2.1 == 0) && !xs.isEmpty then true
      else if xs.all (fun x => !x.1) then false
      else mode == .rdn
    ⟨F.withSign neg 0, false, false⟩
  else
    let (b, o) := F.round mode (decide (total < 0)) total.natAbs e
    ⟨b, false, o⟩

/-- The exact sum of values with NaN and infinities, rounded once (R48, R143). -/
def FpFmt.sum (F : FpFmt) (mode : Rnd) (xs : List Num) : FpOut :=
  if xs.any (fun x => x == .nan) then ⟨F.nan, false, false⟩
  else
    let pos := xs.any (fun x => x == .inf false)
    let negI := xs.any (fun x => x == .inf true)
    if pos && negI then ⟨F.nan, true, false⟩
    else if pos then ⟨F.withSign false F.inf, false, false⟩
    else if negI then ⟨F.withSign true F.inf, false, false⟩
    else F.sumFin mode (xs.filterMap (fun x => match x with | .fin n m e => some (n, m, e) | .nan => none | .inf _ => none))

/-- A value with its sign changed. -/
def Num.neg : Num → Num
  | .nan => .nan
  | .inf n => .inf (!n)
  | .fin n m e => .fin (!n) m e

/-- The exact product, and whether it is 0 × ∞. -/
def Num.mul : Num → Num → Num × Bool
  | .nan, _ => (.nan, false)
  | .inf _, .nan => (.nan, false)
  | .fin _ _ _, .nan => (.nan, false)
  | .inf a, .inf b => (.inf (a != b), false)
  | .inf a, .fin b m _ => if m = 0 then (.nan, true) else (.inf (a != b), false)
  | .fin a m _, .inf b => if m = 0 then (.nan, true) else (.inf (a != b), false)
  | .fin a m e, .fin b n f => (.fin (a != b) (m * n) (e + f), false)

/-- A pattern is an infinity. -/
def FpFmt.isInf (F : FpFmt) (x : Nat) : Bool := x % F.signBit == F.inf

/-- FOVF as R48 has it: of the results that passed the largest finite value, those that are ±∞ (log entry 71). -/
def FpOut.toInf (F : FpFmt) (o : FpOut) : FpOut := { o with ovf := o.ovf && F.isInf o.bits }

/-- a + b (R48, R49). -/
def FpFmt.add (F : FpFmt) (mode : Rnd) (a b : Num) : FpOut := (F.sum mode [a, b]).toInf F

/-- a × b. -/
def FpFmt.mul (F : FpFmt) (mode : Rnd) (a b : Num) : FpOut :=
  match Num.mul a b with
  | (_, true) => ⟨F.nan, true, false⟩
  | (.nan, false) => ⟨F.nan, false, false⟩
  | (.inf n, false) => ⟨F.withSign n F.inf, false, false⟩
  | (.fin n m e, false) => let (b, o) := F.round mode n m e; FpOut.toInf F ⟨b, false, o⟩

/-- a × b + c, rounded once; 0 × ∞ is an event even when c is a NaN (R48). -/
def FpFmt.fma (F : FpFmt) (mode : Rnd) (a b c : Num) : FpOut :=
  match Num.mul a b with
  | (_, true) => ⟨F.nan, true, false⟩
  | (x, false) => (F.sum mode [x, c]).toInf F

/-- The order of minimumNumber and maximumNumber on patterns that are no NaN: −0 below +0 (R50). -/
def FpFmt.key (F : FpFmt) (x : Nat) : Int :=
  if x / F.signBit % 2 = 1 then -(x % F.signBit : Nat) - 1 else (x % F.signBit : Nat)

/-- A pattern is a NaN. -/
def FpFmt.isNan (F : FpFmt) (x : Nat) : Bool := decide (x % F.signBit > F.inf)

/-- minimumNumber or maximumNumber of two patterns (R50). -/
def FpFmt.minMax (F : FpFmt) (wantMax : Bool) (a b : Nat) : Nat :=
  if F.isNan a && F.isNan b then F.nan
  else if F.isNan a then b
  else if F.isNan b then a
  else if wantMax then (if F.key a < F.key b then b else a) else (if F.key b < F.key a then b else a)

/-! ## FP32 under FPCTL (R26, R46) -/

/-- DAZ. -/
def daz (fpctl x : Word) : Word :=
  if fpctl.getLsbD 1 && FpFmt.f32.subnormal x.toNat then x &&& 0x80000000 else x

/-- FTZ. -/
def ftz (fpctl x : Word) : Word :=
  if fpctl.getLsbD 0 && FpFmt.f32.subnormal x.toNat then x &&& 0x80000000 else x

/-- An FP32 operand after DAZ. -/
def num32 (fpctl x : Word) : Num := FpFmt.f32.num (daz fpctl x).toNat

/-- An FP32 result after FTZ, as an instruction's outcome. -/
def fpOuts (fpctl : Word) (o : FpOut) : Outs := ⟨[ftz fpctl (BitVec.ofNat 32 o.bits)], o.inv, o.ovf⟩

/-- FADD (R120). -/
def fadd32 (mode : Rnd) (c a b : Word) : Outs := fpOuts c (FpFmt.f32.add mode (num32 c a) (num32 c b))
/-- FSUB (R120). -/
def fsub32 (mode : Rnd) (c a b : Word) : Outs := fpOuts c (FpFmt.f32.add mode (num32 c a) (num32 c b).neg)
/-- FMUL (R120). -/
def fmul32 (mode : Rnd) (c a b : Word) : Outs := fpOuts c (FpFmt.f32.mul mode (num32 c a) (num32 c b))
/-- FFMA (R120). -/
def ffma32 (mode : Rnd) (c a b d : Word) : Outs := fpOuts c (FpFmt.f32.fma mode (num32 c a) (num32 c b) (num32 c d))
/-- FMIN and FMAX (R50, R121). -/
def fminmax32 (wantMax : Bool) (c a b : Word) : Outs :=
  ⟨[ftz c (BitVec.ofNat 32 (FpFmt.f32.minMax wantMax (daz c a).toNat (daz c b).toNat))], false, false⟩

/-- A comparison of two FP32 values (R122). -/
def fcmp32 (cond : FCond) (c a b : Word) : Bool :=
  let x := (daz c a).toNat
  let y := (daz c b).toNat
  let un := FpFmt.f32.isNan x || FpFmt.f32.isNan y
  let z (v : Nat) : Int := if v % FpFmt.f32.signBit = 0 then 0 else FpFmt.f32.key v
  match cond with
  | .eq => !un && decide (z x = z y)
  | .ne => un || decide (z x ≠ z y)
  | .lt => !un && decide (z x < z y)
  | .le => !un && decide (z x ≤ z y)
  | .gt => !un && decide (z y < z x)
  | .ge => !un && decide (z y ≤ z x)
  | .un => un
  | .ord => !un

/-! ## Single-operand functions (R123) -/

/-- The floor of the square root, from bit `i − 1` down, on top of `r`. -/
def isqrtFrom (n : Nat) : Nat → Nat → Nat
  | 0, r => r
  | i + 1, r => if (r + 2 ^ i) * (r + 2 ^ i) ≤ n then isqrtFrom n i (r + 2 ^ i) else isqrtFrom n i r

/-- The floor of the square root. -/
def isqrt (n : Nat) : Nat := isqrtFrom n (Nat.log2 n / 2 + 1) 0

/-- 1 / a of a nonzero finite a. -/
def rcpFin (mode : Rnd) (neg : Bool) (m : Nat) (e : Int) : FpOut :=
  let k := Nat.log2 m + 64
  let (b, o) := FpFmt.f32.round mode neg (2 ^ k / m) (-(k : Int) - e) (2 ^ k % m != 0)
  ⟨b, false, o⟩

/-- √a of a positive finite a. -/
def sqrtFin (mode : Rnd) (m : Nat) (e : Int) : FpOut :=
  let odd := e % 2 = 1
  let m' := (if odd then 2 * m else m) * 2 ^ 64
  let r := isqrt m'
  let (b, o) := FpFmt.f32.round mode false r (((if odd then e - 1 else e) - 64) / 2) (r * r != m')
  ⟨b, false, o⟩

/-- 1 / √a of a positive finite a. -/
def rsqFin (mode : Rnd) (m : Nat) (e : Int) : FpOut :=
  let odd := e % 2 = 1
  let m' := if odd then 2 * m else m
  let e' := if odd then e - 1 else e
  let r := isqrt (2 ^ 128 / m')
  let (b, o) := FpFmt.f32.round mode false r (-64 - e' / 2) (r * r * m' != 2 ^ 128)
  ⟨b, false, o⟩

/-- Fraction bits of the fixed-point values of FEXP2. -/
def exp2Bits : Nat := 320

/-- The product of 2^(2^−j) over the set bits j of a fraction, most significant first: `c` is the current 2^(2^−j), `acc` the
product so far, both with 320 fraction bits. -/
def exp2Frac : Nat → Nat → Nat → Nat → Nat
  | 0, _, _, acc => acc
  | n + 1, f, c, acc =>
    let c' := isqrt (c * 2 ^ exp2Bits)
    exp2Frac n (f % 2 ^ n) c' (if f / 2 ^ n = 1 then acc * c' / 2 ^ exp2Bits else acc)

/-- 2^a of a finite a: exact for an integer, otherwise irrational and so never a rounding boundary. -/
def exp2Fin (mode : Rnd) (neg : Bool) (m : Nat) (e : Int) : FpOut :=
  let fr := (-e).toNat
  let x : Int := (if neg then -1 else 1) * ((m * 2 ^ e.toNat : Nat) : Int)
  let i := x / (2 ^ fr : Nat)
  let f := (x % (2 ^ fr : Nat)).toNat
  if 1000 < i then let (b, o) := FpFmt.f32.round mode false 1 1000; ⟨b, false, o⟩
  else if i < -1000 then let (b, o) := FpFmt.f32.round mode false 1 (-1000) true; ⟨b, false, o⟩
  else if f = 0 then let (b, o) := FpFmt.f32.round mode false 1 i; ⟨b, false, o⟩
  else
    let r := exp2Frac fr f (2 * 2 ^ exp2Bits) (2 ^ exp2Bits)
    let (b, o) := FpFmt.f32.round mode false r (i - (exp2Bits : Int)) true
    ⟨b, false, o⟩

/-- The first `n` fraction bits of log2 of y / 2^320, for 1 ≤ y / 2^320 < 2. -/
def log2Frac : Nat → Nat → Nat → Nat
  | 0, _, acc => acc
  | n + 1, y, acc =>
    let sq := y * y / 2 ^ 320
    if 2 ^ 321 ≤ sq then log2Frac n (sq / 2) (2 * acc + 1) else log2Frac n sq (2 * acc)

/-- log2 a of a positive finite a: exact for a power of two, otherwise irrational. -/
def log2Fin (mode : Rnd) (m : Nat) (e : Int) : FpOut :=
  let l := Nat.log2 m
  let whole : Int := e + (l : Int)
  if m = 2 ^ l then
    let (b, o) := FpFmt.f32.round mode (decide (whole < 0)) whole.natAbs 0
    ⟨b, false, o⟩
  else
    let v : Int := whole * (2 ^ 128 : Nat) + (log2Frac 128 (m * 2 ^ 320 / 2 ^ l) 0 : Nat)
    if v < 0 then let (b, o) := FpFmt.f32.round mode true (v.natAbs - 1) (-128) true; ⟨b, false, o⟩
    else let (b, o) := FpFmt.f32.round mode false v.natAbs (-128) true; ⟨b, false, o⟩

/-- FRCP on values (R123). -/
def rcpNum (mode : Rnd) : Num → FpOut
  | .nan => ⟨FpFmt.f32.nan, false, false⟩
  | .inf n => ⟨FpFmt.f32.withSign n 0, false, false⟩
  | .fin n m e => if m = 0 then ⟨FpFmt.f32.withSign n FpFmt.f32.inf, false, false⟩ else rcpFin mode n m e

/-- FRSQ on values (R123). -/
def rsqNum (mode : Rnd) : Num → FpOut
  | .nan => ⟨FpFmt.f32.nan, false, false⟩
  | .inf n => if n then ⟨FpFmt.f32.nan, true, false⟩ else ⟨0, false, false⟩
  | .fin n m e =>
    if m = 0 then ⟨FpFmt.f32.withSign n FpFmt.f32.inf, false, false⟩
    else if n then ⟨FpFmt.f32.nan, true, false⟩ else rsqFin mode m e

/-- FSQRT on values (R123). -/
def sqrtNum (mode : Rnd) : Num → FpOut
  | .nan => ⟨FpFmt.f32.nan, false, false⟩
  | .inf n => if n then ⟨FpFmt.f32.nan, true, false⟩ else ⟨FpFmt.f32.inf, false, false⟩
  | .fin n m e =>
    if m = 0 then ⟨FpFmt.f32.withSign n 0, false, false⟩
    else if n then ⟨FpFmt.f32.nan, true, false⟩ else sqrtFin mode m e

/-- FEXP2 on values (R123). -/
def exp2Num (mode : Rnd) : Num → FpOut
  | .nan => ⟨FpFmt.f32.nan, false, false⟩
  | .inf n => if n then ⟨0, false, false⟩ else ⟨FpFmt.f32.inf, false, false⟩
  | .fin n m e => exp2Fin mode n m e

/-- FLOG2 on values (R123). -/
def log2Num (mode : Rnd) : Num → FpOut
  | .nan => ⟨FpFmt.f32.nan, false, false⟩
  | .inf n => if n then ⟨FpFmt.f32.nan, true, false⟩ else ⟨FpFmt.f32.inf, false, false⟩
  | .fin n m e =>
    if m = 0 then ⟨FpFmt.f32.withSign true FpFmt.f32.inf, false, false⟩
    else if n then ⟨FpFmt.f32.nan, true, false⟩ else log2Fin mode m e

/-- FCLASS (R124). -/
def fclass32 (x : Word) : Word :=
  let v := x.toNat
  let neg := x.getLsbD 31
  let mag := v % FpFmt.f32.signBit
  if FpFmt.f32.isNan v then 0x100
  else if mag = FpFmt.f32.inf then (if neg then 0x001 else 0x080)
  else if mag = 0 then (if neg then 0x008 else 0x010)
  else if FpFmt.f32.subnormal v then (if neg then 0x004 else 0x020)
  else (if neg then 0x002 else 0x040)

/-! ## Packed elements (R51, R52) -/

/-- Element `i` of a packed register. -/
def half (x : Word) (i : Nat) : Nat := x.toNat / 2 ^ (16 * i) % 2 ^ 16

/-- The format of an H bit (R125). -/
def halfFmt (h : Bool) : FpFmt := if h then .f16 else .bf16

/-- Two elements computed on their own; either's events count (R52). -/
def packed (f : Nat → FpOut) : Outs :=
  ⟨[BitVec.ofNat 32 ((f 0).bits + (f 1).bits * 2 ^ 16)], (f 0).inv || (f 1).inv, (f 0).ovf || (f 1).ovf⟩

/-- PKADD (R125). -/
def pkadd32 (h : Bool) (mode : Rnd) (a b : Word) : Outs :=
  packed (fun i => (halfFmt h).add mode ((halfFmt h).num (half a i)) ((halfFmt h).num (half b i)))
/-- PKMUL (R125). -/
def pkmul32 (h : Bool) (mode : Rnd) (a b : Word) : Outs :=
  packed (fun i => (halfFmt h).mul mode ((halfFmt h).num (half a i)) ((halfFmt h).num (half b i)))
/-- PKFMA (R125). -/
def pkfma32 (h : Bool) (mode : Rnd) (a b c : Word) : Outs :=
  packed (fun i => (halfFmt h).fma mode ((halfFmt h).num (half a i)) ((halfFmt h).num (half b i)) ((halfFmt h).num (half c i)))

/-! ## Integers and conversions (R45, R53, R126) -/

/-- ± m × 2^e rounded to an integer (R45 `rnd`). -/
def rndInt (mode : Rnd) (neg : Bool) (m : Nat) (e : Int) : Int :=
  let n := shiftRound mode neg m (-e) false
  if neg then -(n : Int) else n

/-- `to_int` (R45). -/
def toInt (mode : Rnd) (lo hi : Int) : Num → Int
  | .nan => 0
  | .inf n => if n then lo else hi
  | .fin n m e => min (max (rndInt mode n m e) lo) hi

/-- `wrap` of an integer, as a number (R45). -/
def wrapN (n : Nat) (x : Int) : Nat := (x % (2 ^ n : Nat)).toNat
/-- `sat_s` (R45). -/
def satS (n : Nat) (x : Int) : Int := min (max x (-(2 ^ (n - 1) : Nat))) ((2 ^ (n - 1) : Nat) - 1)
/-- `sat_u` (R45). -/
def satU (n : Nat) (x : Int) : Int := min (max x 0) ((2 ^ n : Nat) - 1)

/-- An integer result: wrapped, or saturated as signed or unsigned (R45). -/
def reduceInt (n : Nat) (sat u : Bool) (x : Int) : Nat :=
  if sat then (if u then wrapN n (satU n x) else wrapN n (satS n x)) else wrapN n x

/-- An operand as signed or unsigned (R99). -/
def intOf (u : Bool) (x : Word) : Int := if u then x.toNat else x.toInt
/-- A 64-bit operand as signed or unsigned. -/
def intOf64 (u : Bool) (x : BitVec 64) : Int := if u then x.toNat else x.toInt

/-- The type is a signed integer. -/
def numSigned : NumType → Bool
  | .s8 | .s16 | .s32 | .s64 => true
  | .u8 | .u16 | .u32 | .u64 | .f32 | .bf16 | .f16 => false

/-- The format of an FP type. -/
def numFmt : NumType → FpFmt
  | .bf16 => .bf16
  | .f16 => .f16
  | .f32 | .s8 | .s16 | .s32 | .s64 | .u8 | .u16 | .u32 | .u64 => .f32

/-- The bounds of an integer type. -/
def numBounds (ty : NumType) : Int × Int :=
  if numSigned ty then (-(2 ^ (ty.bits - 1) : Nat), (2 ^ (ty.bits - 1) : Nat) - 1) else (0, (2 ^ ty.bits : Nat) - 1)

/-- The integer a source holds, by its own signedness. -/
def cvtIntSource (src : NumType) (raw : Nat) : Int :=
  if numSigned src && decide (2 ^ (src.bits - 1) ≤ raw) then (raw : Int) - (2 ^ src.bits : Nat) else raw

/-- The 64-bit pattern written for an integer result: 8- and 16-bit results extended by the destination's signedness. -/
def cvtIntResult (dst : NumType) (v : Int) : Nat :=
  let n := wrapN dst.bits v
  if dst.bits < 32 then wrapN 32 (cvtIntSource dst n) else n

/-- CVT (R126): the 64-bit pattern of the result, with its events. `raw` is the source field. -/
def cvt64 (c : Word) (rnd : Rnd) (dst src : NumType) (sat : Bool) (raw : Nat) : FpOut :=
  if src.isInt then
    let v := cvtIntSource src raw
    if dst.isInt then
      let (lo, hi) := numBounds dst
      ⟨cvtIntResult dst (if sat then min (max v lo) hi else v), false, false⟩
    else
      let (b, o) := (numFmt dst).round rnd (decide (v < 0)) v.natAbs 0
      ⟨if dst == .f32 then (ftz c (BitVec.ofNat 32 b)).toNat else b, false, o⟩
  else
    let x := if src == .f32 then num32 c (BitVec.ofNat 32 raw) else (numFmt src).num raw
    if dst.isInt then ⟨cvtIntResult dst (toInt rnd (numBounds dst).1 (numBounds dst).2 x), false, false⟩
    else
      let F := numFmt dst
      match x with
      | .nan => ⟨F.nan, false, false⟩
      | .inf n => ⟨F.withSign n F.inf, false, false⟩
      | .fin n m e =>
        if src == .f32 && dst == .f32 then
          let (b, o) := F.round .rne n (shiftRound rnd n m (-e) false) 0
          ⟨(ftz c (BitVec.ofNat 32 b)).toNat, false, o⟩
        else
          let (b, o) := F.round .rne n m e
          ⟨if dst == .f32 then (ftz c (BitVec.ofNat 32 b)).toNat else b, false, o⟩

/-! ## SX blocks (R54–R57) -/

/-- Magnitude bits w. -/
def sxW : SxFmt → Nat
  | .sx2 => 2 | .sx4 => 4 | .sx7 => 7

/-- Bytes of a block. -/
def sxBytes : SxFmt → Nat
  | .sx2 => 8 | .sx4 => 12 | .sx7 => 18

/-- Words that hold a block in registers (R127). -/
def sxWords : SxFmt → Nat
  | .sx2 => 2 | .sx4 => 3 | .sx7 => 5

/-- A block as a little-endian number: its shared exponent. -/
def sxE (blk : Nat) : Nat := blk % 256
/-- Its quad bits. -/
def sxU (blk q : Nat) : Nat := blk / 2 ^ (8 + q) % 2
/-- The field of element i. -/
def sxField (w blk i : Nat) : Nat := blk / 2 ^ (16 + i * (w + 1)) % 2 ^ (w + 1)

/-- The effective integer of an element (R55). -/
def sxEff (w blk i : Nat) : Int :=
  let f := sxField w blk i
  let m : Int := (f % 2 ^ w * 2 ^ sxU blk (i / 4) : Nat)
  if f / 2 ^ w = 1 then -m else m

/-- The FP32 pattern of an element (R55, R57); exact. -/
def sxDecode (w blk i : Nat) : Nat :=
  if sxE blk = 0xFF then FpFmt.f32.nan
  else
    let f := sxField w blk i
    (FpFmt.f32.round .rne (decide (f / 2 ^ w = 1)) (f % 2 ^ w) ((sxE blk : Int) - 127 + sxU blk (i / 4) - w)).1

/-- bx_encode of 16 FP32 patterns after DAZ: the block as a number, with FINV and FOVF (R56). -/
def bxEncode (w : Nat) (mode : Rnd) (xs : List Nat) : FpOut :=
  let F := FpFmt.f32
  if xs.any (fun x => F.isNan x || F.isInf x) then
    ⟨0xFF, xs.any F.isInf && !xs.any F.isNan, false⟩
  else
    let mag (x : Nat) : Nat := x % F.signBit
    let big := xs.foldl (fun m x => max m (mag x)) 0
    let e : Int := match F.num big with
      | .fin _ m e => if m = 0 then -127 else e + (Nat.log2 m : Int)
      | .nan => -127
      | .inf _ => -127
    let E := (min (max (e + 127) 0) 0xFE).toNat
    let scaled (x : Nat) (u : Nat) : Nat :=
      match F.num (mag x) with
      | .fin _ m e => shiftRound mode false m (-(e + (w : Int) - ((E : Int) - 127) - u)) false
      | .nan => 0
      | .inf _ => 0
    let us := (List.range 4).map (fun q =>
      let pm := ((xs.drop (4 * q)).take 4).foldl (fun m x => max m (mag x)) 0
      if scaled pm 0 ≤ 2 ^ w - 1 then 0 else 1)
    let ms := xs.zipIdx.map (fun (x, i) => (x, scaled x (us[i / 4]?.getD 0)))
    let fields := ms.map (fun (x, m) => min m (2 ^ w - 1) + (if x / F.signBit % 2 = 1 then 2 ^ w else 0))
    let area := fields.foldr (fun f n => n * 2 ^ (w + 1) + f) 0
    let micro := us.foldr (fun u n => n * 2 + u) 0
    ⟨E + micro * 2 ^ 8 + area * 2 ^ 16, false, ms.any (fun (_, m) => decide (m > 2 ^ w - 1))⟩

/-! ## Reductions (R141, R143, R180) and atomics (R168) -/

/-- The identity of a reduction (R141). -/
def gopIdentity : GOp → Word
  | .add => 0 | .and => 0xFFFFFFFF | .or => 0 | .xor => 0 | .minS => 0x7FFFFFFF | .maxS => 0x80000000
  | .minU => 0xFFFFFFFF | .maxU => 0 | .fadd => 0x80000000 | .fmin => 0x7F800000 | .fmax => 0xFF800000

/-- The combination of a set of values: DAZ by `inCtl`, FTZ by `outCtl` (R141, R143). -/
def gopCombine (op : GOp) (mode : Rnd) (outCtl : Word) (xs : List Word) : Outs :=
  if xs.isEmpty then ⟨[gopIdentity op], false, false⟩
  else
    match op with
    | .add => ⟨[xs.foldl (· + ·) 0], false, false⟩
    | .and => ⟨[xs.foldl (· &&& ·) 0xFFFFFFFF], false, false⟩
    | .or => ⟨[xs.foldl (· ||| ·) 0], false, false⟩
    | .xor => ⟨[xs.foldl (· ^^^ ·) 0], false, false⟩
    | .minS => ⟨[xs.foldl (fun m x => if x.toInt < m.toInt then x else m) 0x7FFFFFFF], false, false⟩
    | .maxS => ⟨[xs.foldl (fun m x => if m.toInt < x.toInt then x else m) 0x80000000], false, false⟩
    | .minU => ⟨[xs.foldl (fun m x => if x.toNat < m.toNat then x else m) 0xFFFFFFFF], false, false⟩
    | .maxU => ⟨[xs.foldl (fun m x => if m.toNat < x.toNat then x else m) 0], false, false⟩
    | .fadd => fpOuts outCtl (FpFmt.f32.sum mode (xs.map (fun x => FpFmt.f32.num x.toNat)))
    | .fmin => ⟨[ftz outCtl (BitVec.ofNat 32 (xs.foldl (fun m x => FpFmt.f32.minMax false m x.toNat) FpFmt.f32.nan))], false, false⟩
    | .fmax => ⟨[ftz outCtl (BitVec.ofNat 32 (xs.foldl (fun m x => FpFmt.f32.minMax true m x.toNat) FpFmt.f32.nan))], false, false⟩

/-- The operation is FP32, so FPCTL applies (R26, R180). -/
def gopIsFp : GOp → Bool
  | .fadd | .fmin | .fmax => true
  | .add | .and | .or | .xor | .minS | .maxS | .minU | .maxU => false

/-- atom_op on values of `n` bits (R168). -/
def atomOp (aop : Aop) (n : Nat) (old b : Nat) : Nat :=
  let sgn (x : Nat) : Int := if 2 ^ (n - 1) ≤ x then (x : Int) - (2 ^ n : Nat) else x
  match aop with
  | .add => (old + b) % 2 ^ n
  | .and => old &&& b
  | .or => old ||| b
  | .xor => old ^^^ b
  | .minS => if sgn b < sgn old then b else old
  | .maxS => if sgn old < sgn b then b else old
  | .minU => min old b
  | .maxU => max old b
  | .xchg => b
  | .incw => if b ≤ old then 0 else old + 1
  | .decw => if old = 0 ∨ b < old then b else old - 1
  | .fadd => (FpFmt.f32.add .rne (FpFmt.f32.num old) (FpFmt.f32.num b)).bits
  | .fmin => FpFmt.f32.minMax false old b
  | .fmax => FpFmt.f32.minMax true old b

end Sys2Proof.Machine
end

