-- ==== Sys2Proof/Machine/Flags.lean ====
section
/-! DEFINITION. Tags of results (R244), the integer and logic operations on one thread's operands (R102–R119), and the
one way a register or predicate result retires (R27, R100). -/

namespace Sys2Proof.Machine

/-! ## Tag rules (R244) -/

/-- Never tagged. -/
def tagNone (_ : List Tag) : Tag := .none

/-- Uniform when every vector source is. -/
def tagUniform (ts : List Tag) : Tag := if ts.all (fun t => t == .uniform) then .uniform else .none

/-- MOV: the source's tag; of a pair, the tag of both halves. -/
def tagMov (ts : List Tag) : Tag :=
  if ts.all (fun t => t == .uniform) then .uniform else if ts.all (fun t => t == .affine) then .affine else .none

/-- IADD and ISUB without SAT: affine beside uniform, affine or an immediate. -/
def tagAdd (sat : Bool) (ts : List Tag) : Tag :=
  if ts.all (fun t => t == .uniform) then .uniform
  else if !sat && ts.all (fun t => t != .none) then .affine else .none

/-- IMUL without SAT, SHL without CL: affine first operand, uniform second. -/
def tagScale (off : Bool) (ts : List Tag) : Tag :=
  if ts.all (fun t => t == .uniform) then .uniform
  else if !off && ts == [.affine, .uniform] then .affine else .none

/-! ## Retiring -/

/-- Events set OVFL bits of a group, and a W1C write in the same core clock leaves them set (R100). -/
def Group.raise (g : Group) (bits : Word) : Group := { g with ovfl := g.ovfl ||| bits, ovflNow := g.ovflNow ||| bits }

/-- A register result retires: the writes of covered threads, the OVFL events, the next word (R16, R100). -/
def State.retireAlu (s : State) (h : Here) (cov : Mask) (op : AluOp) : State :=
  s.modGroup h.ctx (fun g =>
    (g.setWave h.wv ((h.w.alu cov op).advance h.k)).raise (if cov = 0 then 0 else h.w.aluFlags cov op))

/-- A word whose one effect is a register result. -/
def State.aluWord (s : State) (g : Guard) (op : Here → AluOp) : Host.Outcome State Fault Refusal :=
  match s.here with
  | none => .fault .noIssuingSlot
  | some h => .next (s.retireAlu h (h.w.cover h.k g) (op h))

/-- A word that changes its own wave alone and goes on. -/
def State.waveWord (s : State) (f : Here → Wave) : Host.Outcome State Fault Refusal :=
  match s.here with
  | none => .fault .noIssuingSlot
  | some h => .next (s.putWave h ((f h).advance h.k))

/-- An operation with one destination and a plain 32-bit result. -/
def op1 (vd : Reg) (srcs : List Reg) (rule : List Tag → Tag) (f : List Word → Word) : AluOp :=
  ⟨[vd.toNat], srcs.map BitVec.toNat, true, rule, fun _ xs => ⟨[f xs], false, false⟩⟩

/-- A 32-bit operand by position. -/
def arg (xs : List Word) (i : Nat) : Word := xs[i]?.getD 0

/-- A 64-bit operand, low half at position `i`. -/
def arg64 (xs : List Word) (i : Nat) : BitVec 64 := arg xs (i + 1) ++ arg xs i

/-- The words of a 64-bit result, low half first (R15). -/
def words64 (x : Nat) : List Word := [BitVec.ofNat 32 x, BitVec.ofNat 32 (x / 2 ^ 32)]

/-! ## Operations on operands -/

/-- A reduced 32-bit integer result. -/
def int32 (sat u : Bool) (x : Int) : Word := BitVec.ofNat 32 (reduceInt 32 sat u x)

/-- IADD, ISUB, IMUL (R105, R107). -/
def iadd32 (sat u : Bool) (a b : Word) : Word := int32 sat u (intOf u a + intOf u b)
/-- ISUB. -/
def isub32 (sat u : Bool) (a b : Word) : Word := int32 sat u (intOf u a - intOf u b)
/-- IMUL. -/
def imul32 (sat u : Bool) (a b : Word) : Word := int32 sat u (intOf u a * intOf u b)
/-- IMULH (R107). -/
def imulh32 (u : Bool) (a b : Word) : Word := int32 false u (intOf u a * intOf u b / 2 ^ 32)
/-- IMAD, W = 0 (R108). -/
def imad32 (sat u : Bool) (a b c : Word) : Word := int32 sat u (intOf u a * intOf u b + intOf u c)
/-- IMAD, W = 1 (R108). -/
def imadWide (sat u : Bool) (a b : Word) (c : BitVec 64) : List Word :=
  words64 (reduceInt 64 sat u (intOf u a * intOf u b + intOf64 u c))
/-- IMIN (R109). -/
def imin32 (u : Bool) (a b : Word) : Word := if intOf u b < intOf u a then b else a
/-- IMAX (R109). -/
def imax32 (u : Bool) (a b : Word) : Word := if intOf u a < intOf u b then b else a
/-- IABS (R110). -/
def iabs32 (sat : Bool) (a : Word) : Word := int32 sat false (if a.toInt < 0 then -a.toInt else a.toInt)
/-- BLUT and PLOP: the table's bit at the index the three bits form (R112). -/
def lutBit (lut : BitVec 8) (a b c : Bool) : Bool :=
  lut.getLsbD ((if a then 1 else 0) + (if b then 2 else 0) + (if c then 4 else 0))
/-- BLUT (R112). -/
def blut32 (lut : BitVec 8) (a b c : Word) : Word :=
  BitVec.ofFnLE (fun i : Fin 32 => lutBit lut (a.getLsbD i) (b.getLsbD i) (c.getLsbD i))
/-- The shift count of CL (R113, R114). -/
def shiftCount (cl : Bool) (b : Word) : Nat := if cl then min b.toNat 32 else b.toNat % 32
/-- SHL (R113). -/
def shl32 (cl : Bool) (a b : Word) : Word := a <<< shiftCount cl b
/-- SHR (R113). -/
def shr32 (cl : Bool) (a b : Word) : Word := a >>> shiftCount cl b
/-- SAR (R113). -/
def sar32 (cl : Bool) (a b : Word) : Word := BitVec.ofInt 32 (a.toInt / 2 ^ shiftCount cl b)
/-- FSHL (R114). -/
def fshl32 (cl : Bool) (a b c : Word) : Word := ((a ++ b : BitVec 64) <<< shiftCount cl c).extractLsb' 32 32
/-- FSHR (R114). -/
def fshr32 (cl : Bool) (a b c : Word) : Word := ((a ++ b : BitVec 64) >>> shiftCount cl c).extractLsb' 0 32
/-- Position and effective length of a bit field (R115). -/
def fieldOf (ctl : Word) : Nat × Nat := (ctl.toNat % 256, min (ctl.toNat / 256 % 256) (32 - ctl.toNat % 256))
/-- BFE (R115). -/
def bfe32 (u : Bool) (a b : Word) : Word :=
  let (pos, len) := fieldOf b
  if 32 ≤ pos ∨ len = 0 then 0
  else
    let x := a.toNat / 2 ^ pos % 2 ^ len
    if !u && decide (2 ^ (len - 1) ≤ x) then BitVec.ofInt 32 ((x : Int) - (2 ^ len : Nat)) else BitVec.ofNat 32 x
/-- BFI (R115). -/
def bfi32 (a b c : Word) : Word :=
  let (pos, len) := fieldOf c
  if 32 ≤ pos ∨ len = 0 then b
  else
    let m : Word := BitVec.ofNat 32 ((2 ^ len - 1) * 2 ^ pos)
    (b &&& ~~~m) ||| ((a <<< pos) &&& m)
/-- POPC (R116). -/
def popc32 (a : Word) : Word := BitVec.ofNat 32 (Mask.count a)
/-- CLZ (R116). -/
def clz32 (a : Word) : Word := if a = 0 then 32 else BitVec.ofNat 32 (31 - Nat.log2 a.toNat)
/-- BREV (R116). -/
def brev32 (a : Word) : Word := BitVec.ofFnLE (fun i : Fin 32 => a.getLsbD (31 - i.val))
/-- An integer comparison (R117). -/
def icmpInt (cond : ICond) (a b : Int) : Bool :=
  match cond with
  | .eq => decide (a = b) | .ne => decide (a ≠ b) | .lt => decide (a < b) | .le => decide (a ≤ b)
  | .gt => decide (b < a) | .ge => decide (b ≤ a)
/-- A comparison combined with a predicate (R117). -/
def combine (comb : Comb) (r p : Bool) : Bool :=
  match comb with
  | .none => r | .and => r && p | .or => r || p | .xor => r != p
/-- Result byte `i` of BPERM (R119). -/
def bpermByte (a b c : Word) (i : Nat) : Nat :=
  let k := c.toNat / 2 ^ (8 * i) % 256
  let byt := (a.toNat + b.toNat * 2 ^ 32) / 2 ^ (8 * (k % 8)) % 256
  if k / 64 % 2 = 1 then 0 else if k / 128 % 2 = 1 then (if 128 ≤ byt then 255 else 0) else byt
/-- BPERM (R119). -/
def bperm32 (a b c : Word) : Word :=
  BitVec.ofNat 32 ((List.range 4).foldl (fun x i => x + bpermByte a b c i * 2 ^ (8 * i)) 0)

end Sys2Proof.Machine
end

