-- ==== Sys2Proof/Machine/Barriers.lean ====
section
/-! DEFINITION. Barrier units: where each lies, arrivals, transaction counts, completion of a phase (R177–R183). -/

namespace Sys2Proof.Machine

/-- The key of a wave: its group's context and its number among the waves that the group has started. -/
def waveKey (ctx uid : Nat) : Nat := uid * 2 ^ 32 + ctx

/-- The wave of a key. -/
def State.keyWave (s : State) (key : Nat) : Option Wave :=
  (Map.find s.groups (key % 2 ^ 32)).bind (fun g => g.waves.find? (fun w => w.uid == key / 2 ^ 32))

/-- The wave of a key changed. -/
def State.modKeyWave (s : State) (key : Nat) (f : Wave → Wave) : State :=
  s.modGroup (key % 2 ^ 32) (fun g => { g with waves := g.waves.map (fun w => if w.uid = key / 2 ^ 32 then f w else w) })

/-- A barrier: `home` is a wave key at wave level, a context at block level, a gang at cluster and grid level (R177). -/
def State.bar (s : State) (level : Level) (home index : Nat) : Barrier :=
  match level with
  | .wave =>
    match s.keyWave home with
    | some w => vget w.bars index Barrier.launch
    | none => Barrier.launch
  | .block => match Map.find s.groups home with
    | some g => vget g.bars index Barrier.launch
    | none => Barrier.launch
  | .cluster => match Map.find s.gangs home with
    | some g => vget g.clusterBars index Barrier.launch
    | none => Barrier.launch
  | .grid => match Map.find s.gangs home with
    | some g => vget g.gridBars index Barrier.launch
    | none => Barrier.launch

/-- A barrier changed. -/
def State.modBar (s : State) (level : Level) (home index : Nat) (f : Barrier → Barrier) : State :=
  match level with
  | .wave => s.modKeyWave home (fun w => { w with bars := vmod w.bars index f })
  | .block => s.modGroup home (fun g => { g with bars := vmod g.bars index f })
  | .cluster => s.modGang home (fun g => { g with clusterBars := vmod g.clusterBars index f })
  | .grid => s.modGang home (fun g => { g with gridBars := vmod g.gridBars index f })

/-- The threads of a wave that have arrived in a barrier's current phase by a BAR or BARTX. -/
def Barrier.of (b : Barrier) (key : Nat) : Mask := Map.get b.arrived key 0

/-- Every member thread of a group that is neither exited nor dead has arrived; spawned waves are no members (R177, R178). -/
def Group.allArrived (g : Group) (ctx : Nat) (b : Barrier) : Bool :=
  g.waves.all (fun w => w.spawned || (w.alive &&& ~~~(b.of (waveKey ctx w.uid))) == 0)

/-- Threads of a wave whose exit or death has not left their core yet (R307, R308). -/
def State.pendingGone (s : State) (g : Group) (ctx uid : Nat) : Mask :=
  (s.core g.core).posts.foldl (fun m p => match p.2 with
    | .gone c u threads => if c = ctx ∧ u = uid then m ||| threads else m
    | .event _ | .arrival _ _ _ _ _ _ _ _ | .killed _ _ _ => m) 0

/-- The same as other cores see it: a thread is a member until its exit or death has left its core. -/
def State.allArrivedSeen (s : State) (g : Group) (ctx : Nat) (b : Barrier) : Bool :=
  g.waves.all (fun w => w.spawned || ((w.alive ||| s.pendingGone g ctx w.uid) &&& ~~~(b.of (waveKey ctx w.uid))) == 0)

/-- Every member has arrived (R178). -/
def State.allArrived (s : State) (level : Level) (home : Nat) (b : Barrier) : Bool :=
  match level with
  | .wave =>
    match s.keyWave home with
    | none => false
    | some w =>
      let own := Mask.count (b.of home ||| ~~~w.alive)
      let others := (b.arrived.filter (fun p => p.1 != home)).foldl (fun n p => n + Mask.count p.2) 0
      own + others + min b.gone (b.exp - others) == 32 + b.exp
  | .block => match Map.find s.groups home with
    | none => false
    | some g => g.allArrived home b
  | .cluster | .grid =>
    match Map.find s.gangs home with
    | none => false
    | some g => g.members.all (fun c => match Map.find s.groups c with
      | none => true
      | some gr => s.allArrivedSeen gr c b)

/-- The barrier that a BAR of a wave's thread names at a level (R177). -/
def barHome (ctx : Nat) (g : Group) (w : Wave) (level : Level) (t : Lane) : Nat :=
  match level with
  | .wave => waveKey ctx (if w.spawned then w.origins[t.val]?.getD w.uid else w.uid)
  | .block => ctx
  | .cluster | .grid => g.gang

/-- The barriers the threads of a mask name, once each. -/
def barHomes (ctx : Nat) (g : Group) (w : Wave) (level : Level) (m : Mask) : List Nat :=
  ((Mask.lanes m).map (barHome ctx g w level)).dedup

/-- A slot that waits for the phase of a barrier: a fused arrival receives the combination with its own FTZ (R180), and the slot
goes on when it waits for no other. No OVFL bit is set (R156). -/
def Wave.release (ctx : Nat) (g : Group) (level : Level) (home index : Nat) (b : Barrier) (k : Fin 2) (w : Wave) : Wave :=
  match w.slots[k].wait with
  | some (.barrier l i units fused) =>
    if l = level ∧ i = index ∧ (home, b.phase) ∈ units then
      let rest := units.filter (fun u => u != (home, b.phase))
      let w1 : Wave :=
        match fused, b.kind with
        | some (vd, cov), some (some fuse) =>
          let mine := Mask.ofPred (fun t => Mask.has (cov &&& w.alive) t && barHome ctx g w level t == home)
          w.writeLanes mine vd.toNat .none (fun _ => arg (gopCombine fuse.op fuse.rnd w.fpctl b.parts).vals 0)
        | _, _ => w
      if rest.isEmpty then w1.advance k else w1.stallAt k (.barrier l i rest fused)
    else w
  | _ => w

/-- Both slots of a wave, and those it has set aside. -/
def Wave.releaseBoth (ctx : Nat) (g : Group) (level : Level) (home index : Nat) (b : Barrier) (w : Wave) : Wave :=
  w.everySlot (fun w => (w.release ctx g level home index b 0).release ctx g level home index b 1)

/-- Every slot that waits for the phase goes on. -/
def State.releaseAll (s : State) (level : Level) (home index : Nat) (b : Barrier) : State :=
  { s with groups := s.groups.map (fun p => (p.1, { p.2 with waves := p.2.waves.map (fun w => w.releaseBoth p.1 p.2 level home index b) })) }

/-- Spawned threads that count as arrived from the start of a wave barrier's phase (R178). -/
def State.goneFor (s : State) (level : Level) (home : Nat) : Nat :=
  match level with
  | .wave => ((s.keyWave home).map (fun w => w.spawnGone)).getD 0
  | .block | .cluster | .grid => 0

/-- A phase completes when every member has arrived and its transaction count is 0 (R178). -/
def State.settleBar (s : State) (level : Level) (home index : Nat) : State :=
  let b := s.bar level home index
  if !b.arrived.isEmpty && b.tx == 0 && s.allArrived level home b then
    (s.modBar level home index (fun b =>
      { b with phase := b.phase + 1, arrived := [], exp := 0, tx := 0, kind := none, parts := [], gone := s.goneFor level home })).releaseAll
        level home index b
  else s

/-- The block and wave barriers of a group, after threads of it have exited or died (R41). -/
def State.settleOwn (s : State) (ctx : Nat) : State :=
  match Map.find s.groups ctx with
  | none => s
  | some g =>
    let s1 := (List.range 16).foldl (fun s i => s.settleBar .block ctx i) s
    (g.waves.map (fun w => w.uid)).foldl (fun s u =>
      (List.range 4).foldl (fun s i => s.settleBar .wave (waveKey ctx u) i) s) s1

/-- The cluster and grid barriers of a gang. -/
def State.settleShared (s : State) (gang : Nat) : State :=
  (List.range 4).foldl (fun s i => s.settleBar .grid gang i) ((List.range 8).foldl (fun s i => s.settleBar .cluster gang i) s)

/-- Threads of a wave arrive in the current phase, with what they contribute to its fuse (R178–R180). -/
def State.arrive (s : State) (level : Level) (home index key : Nat) (m : Mask) (kind : Option Fuse) (vals : List Word) : State :=
  s.modBar level home index (fun b =>
    { b with arrived := Map.insert b.arrived key (b.of key ||| m), kind := some kind, parts := b.parts ++ vals })

/-- A barrier with the arrivals that are still to leave their cores (R307). -/
def State.barSeen (s : State) (level : Level) (home index : Nat) : Barrier :=
  let b := s.bar level home index
  match level with
  | .wave | .block => b
  | .cluster | .grid =>
    (s.cores.toList.flatMap (fun c => c.posts)).foldl (fun b p => match p.2 with
      | .arrival l h i n key m fuse vals =>
        if l = level ∧ h = home ∧ i = index ∧ n = b.phase then
          { b with arrived := Map.insert b.arrived key (b.of key ||| m), kind := some fuse, parts := b.parts ++ vals }
        else b
      | .event _ | .gone _ _ _ | .killed _ _ _ => b) b

/-- The gang that a context is of. -/
def State.gangNo (s : State) (ctx : Nat) : Option Nat := (Map.find s.groups ctx).map (fun g => g.gang)

/-- The cluster and grid barriers of a context's gang, after threads of it have exited or died. -/
def State.settleGang (s : State) (ctx : Nat) : State :=
  match s.gangNo ctx with
  | none => s
  | some g => s.settleShared g

/-- A work-group that a kill has ended is known outside its core: its launch places no further gang and takes the first verdict, and its
COLLs are dropped (R300, R327, R334). -/
def State.noteKill (s : State) (ctx result cause : Nat) : State :=
  match Map.find s.groups ctx with
  | none => s
  | some g =>
    { s with
      launches := Map.modify s.launches g.launch (fun l =>
        { l with verdict := if l.verdict.isNone then some (result, cause) else l.verdict, closed := true })
      colls := s.colls.filter (fun p => p.2.ctx != ctx) }

/-- An effect leaves its core (R307); an arrival whose phase is over, since its threads have exited or died, is none. -/
def State.landPost (s : State) (core : Nat) : Post → State
  | .event e => s.cast (clusterOf core) e
  | .arrival level home index phase key m fuse vals =>
    if (s.bar level home index).phase = phase then (s.arrive level home index key m fuse vals).settleBar level home index else s
  | .gone ctx _ _ => s.settleGang ctx
  | .killed ctx result cause => s.noteKill ctx result cause

/-- The effects of a core's words that are 40 core clocks old leave it, in order (R307). -/
def State.landPosts (s : State) (core : Nat) : State :=
  let now := (s.core core).clock.toNat
  let due := (s.core core).posts.filter (fun p => decide (p.1 + Config.strikeWindow ≤ now))
  if due.isEmpty then s
  else
    due.foldl (fun s p => s.landPost core p.2)
      (s.modCore core (fun c => { c with posts := c.posts.filter (fun p => decide (now < p.1 + Config.strikeWindow)) }))

/-- Exited or dead threads of a spawned wave count as arrived at the wave barriers of their suppliers, in the current phase and every
later one, for the additions these expect (R178). -/
def State.spawnedGone (s : State) (ctx wv : Nat) (gone : Mask) : State :=
  match (Map.find s.groups ctx).bind (fun g => g.waves[wv]?) with
  | none => s
  | some w =>
    if !w.spawned then s
    else
      (Mask.lanes gone).foldl (fun s t =>
        match w.origins[t.val]? with
        | none => s
        | some o =>
          (List.range 4).foldl (fun s i =>
            s.modBar .wave (waveKey ctx o) i (fun b => if Mask.has (b.of (waveKey ctx w.uid)) t then b else { b with gone := b.gone + 1 }))
            (s.modKeyWave (waveKey ctx o) (fun x => { x with spawnGone := x.spawnGone + 1 }))) s

/-- Bounds of a transaction count (R183). -/
def txMin : Int := -2147483648
/-- The upper bound. -/
def txMax : Int := 2147483647

/-- Delivered bytes subtract from the current phase's count, which saturates and marks an overflow (R183). -/
def State.deliverTx (s : State) (ctx index n : Nat) : State :=
  (s.modBar .block ctx index (fun b =>
    if b.tx - n < txMin then { b with tx := txMin, overflow := true } else { b with tx := b.tx - n })).settleBar .block ctx index

end Sys2Proof.Machine
end

