-- ==== Sys2Proof/Machine/Ops.lean ====
section
/-! DEFINITION. Taking an exception and returning from one, ending threads and groups: the shared operations every meaning
goes through (R24, R43, R151, R290–R304). -/

namespace Sys2Proof.Machine

/-- A wave has a slot that may still issue. -/
def Wave.liveSlot (w : Wave) : Bool := w.slots[(0 : Fin 2)].live || w.slots[(1 : Fin 2)].live

/-- The slot a wave's frame speaks for: its lower-numbered live slot (R294). -/
def Wave.lowSlot (w : Wave) : Fin 2 := if w.slots[(0 : Fin 2)].live then 0 else 1

/-- The slot of a path of the wave, by its label; the lone slot where that path has ended or merged. -/
def Wave.slotOf (w : Wave) (label : Fin 2) : Fin 2 :=
  if w.slots[(0 : Fin 2)].live && w.slots[(0 : Fin 2)].label == label then 0
  else if w.slots[(1 : Fin 2)].live && w.slots[(1 : Fin 2)].label == label then 1
  else w.lowSlot

/-- A memory word, by its number, comes before a slot's words: it is of the slot's path, or it was there at the split or merge the slot
comes from (R266). -/
def PathSlot.follows (p : PathSlot) (id : Nat) (m : MemWord) : Bool := m.slot == p.label || decide (id < p.afterAll)

/-! ## Ending threads -/

/-- The word would leave no live thread in the wave. -/
def Wave.endsAll (w : Wave) (gone : Mask) : Bool := w.alive &&& ~~~gone == 0

/-- Threads exit or die in the state: the barriers they count at (R41, R151, R304). Those of a cluster and of a grid count them once that
has left the core (R307, R308). -/
def State.afterGone (s : State) (ctx wv : Nat) (gone : Mask) : State :=
  let s1 := (s.spawnedGone ctx wv gone).settleOwn ctx
  match Map.find s1.groups ctx with
  | none => s1
  | some g => s1.post g.core (.gone ctx (((g.waves[wv]?).map (fun w => w.uid)).getD 0) gone) (fun s => s.settleGang ctx)

/-- Threads are killed: DEADM, EXEC and HOLD, and an UNCORRECTABLE event for each (R304). `telem` and `addr` describe the read,
`at_` the issuing slot where the kill comes at issue. -/
def State.killThreads (s : State) (ctx wv : Nat) (gone : Mask) (telem : Lane → Word) (addr : Lane → Addr) (at_ : Option (Fin 2)) : State :=
  match Map.find s.groups ctx with
  | none => s
  | some g =>
    match g.waves[wv]? with
    | none => s
    | some w =>
      let victims := gone &&& w.alive
      if victims = 0 then s
      else
        let s1 := s.modWave ctx wv (fun w => w.kill victims at_ s.nextId)
        let s2 := (Mask.lanes victims).foldl (fun s t =>
          s.castGroup ctx g { cls := 0x02, cause := 0x11, addr := addr t, data := telem t, wave := wv, thread := t.val }) s1
        s2.afterGone ctx wv victims

/-- Something that has asked the arbiter for a core is still there: a command, a drain, an instruction in matrix order (R252, R288). -/
def Core.asks (c : Core) (r : Reservation) : Bool :=
  match r.cls with
  | .vector => true
  | .copy => c.copies.any (fun x => x.id == r.part)
  | .drain => c.buffers.toList.any (fun b => b.any (fun d => d.rank == r.part))
  | .matrix => c.queue.any (fun e => e.id == r.part)

/-- Requests and grants of a core whose command or instruction has gone leave the arbiter. -/
def State.dropAsks (s : State) (core : Nat) : State :=
  let keep (r : Reservation) : Bool := r.core != core || (s.core core).asks r
  s.modCluster (clusterOf core) (fun k => { k with waiting := k.waiting.filter keep, granted := k.granted.filter keep })

/-- In this halt state a wave's words act, and one that faults raises its trap, or stops the wave (R295, R298). -/
def Halt.acts : Halt → Bool
  | .running | .coming | .skid _ _ | .handler => true
  | .stopped | .trapped _ _ | .debug _ _ => false

/-! ## Ending a group by RTT.kill (R300) -/

/-- Everything of a context on its core that a kill drops: parked words, matrix instructions not begun, copies, bins; the
array is released. -/
def Core.dropContext (c : Core) (ctx : Nat) : Core :=
  { c with
    owner := if c.owner = some ctx then none else c.owner
    queue := c.queue.filter (fun e => e.ctx != ctx)
    log := c.log.filter (fun e => e.2.ctx != ctx)
    copies := c.copies.filter (fun e => e.ctx != ctx)
    bins := c.bins.filter (fun b => b.ctx != ctx) }

/-- Every wave of the group ends. -/
def Group.endWaves (g : Group) : Group :=
  { g with waves := g.waves.map (fun w => { w with slots := #v[PathSlot.empty, PathSlot.empty], ended := true, halt := .running, block := none, faults := [] }) }

/-- The group ends as RTT.kill ends it, for a cause; its launch records RESULT 2 once that has left the core (R300, R307, R308, R327, R334). -/
def State.killGroup (s : State) (ctx : Nat) (result cause : Nat) : State :=
  match Map.find s.groups ctx with
  | none => s
  | some g =>
    let s1 := (s.modGroup ctx Group.endWaves).modCore g.core (fun c => c.dropContext ctx)
    ((s1.post g.core (.killed ctx result cause) (fun s => s.noteKill ctx result cause)).dropAsks g.core).settleOwn ctx

/-- RTT.kill in a wave, run by its handler or as the default handler: the cast record takes the cause (R298, R300). -/
def State.rttKill (s : State) (ctx wv : Nat) (g : Group) (w : Wave) : State :=
  (s.castGroup ctx g
    { cls := 0x01, cause := w.frame.cause.toNat, addr := w.frame.addr, data := w.frame.telem, wave := wv,
      thread := w.frame.thread.toNat }).killGroup ctx 2 w.frame.cause.toNat

/-! ## Taking a trap -/

/-- It has trapped and waits for its siblings. -/
def Halt.isTrapped : Halt → Bool
  | .trapped _ _ => true
  | .running | .coming | .skid _ _ | .stopped | .handler | .debug _ _ => false

/-- A halt is on its way to it, or it issues on since one reached it. -/
def Halt.isStopping : Halt → Bool
  | .coming | .skid _ _ => true
  | .running | .trapped _ _ | .stopped | .handler | .debug _ _ => false

/-- A sibling stops: SIBLING_HALT in its frame with the next word of its lower-numbered live slot, or the word that would trap (R294,
R295), its path state set aside (R240). -/
def Wave.stopSibling (w : Wave) (before : Option (Fin 2)) (words clocks : Nat) : Wave :=
  let k := before.getD w.lowSlot
  let pc := if before.isSome then w.slots[k].pc else w.slots[k].following
  { w with
    frame := ⟨BitVec.ofNat 32 Cause.siblingHalt.code, pc, w.slots[k].exec, 0, noElem, 0, BitVec.ofNat 32 words,
      BitVec.ofNat 32 clocks⟩
    block := some ⟨w.slots, w.stack, w.spilled, k, w.slots[k].pc, none, 0, true, none, none, none⟩
    halt := .stopped }

/-- The wave has trapped in a core clock. -/
def Wave.trappedAt (w : Wave) (clock : Nat) : Bool :=
  match w.halt with
  | .trapped _ c => c == clock
  | .running | .coming | .skid _ _ | .stopped | .handler | .debug _ _ => false

/-- A wave that has trapped in the same core clock as one of a lower number stops as a sibling instead: its word has raised nothing
(R295). Where the word stands in the operand log, the slot goes on after it. -/
def Wave.yieldTrap (w : Wave) : Wave :=
  match w.block with
  | none => w.stopSibling none 0 0
  | some b =>
    let w1 := if b.entry.isSome then w.setSlot b.trapSlot (fun p => { p with pc := b.cont }) else w
    { w1.stopSibling (some b.trapSlot) 0 0 with faults := w.faults ++ b.fault.toList }

/-- The wave yields its trap, and what the trap had delivered is undelivered: its fault, or a transaction overflow of a block barrier. -/
def Group.yieldTrap (g : Group) (v : Nat) : Group :=
  { g with
    waves := g.waves.modify v Wave.yieldTrap
    bars := match (g.waves[v]?).bind (fun w => w.block.bind (fun b => b.tx)) with
      | none => g.bars
      | some i => vmod g.bars i (fun b => { b with overflow := true }) }

/-- A trap that a wave's word would raise stops the wave before the word instead: the halt of another wave's trap is on its way or has
reached it, and no wave of a higher number has trapped in this core clock (R295). -/
def Group.stopsAt (g : Group) (wv clock : Nat) : Bool :=
  match g.waves[wv]? with
  | none => false
  | some w =>
    match w.halt with
    | .skid _ _ => true
    | .coming => !g.waves.zipIdx.any (fun x => decide (wv < x.2) && x.1.trappedAt clock)
    | .running | .stopped | .trapped _ _ | .handler | .debug _ _ => false

/-- The handler is entered in the trapped wave: slot 0 alone with the threads of the fault mask that have not died since, or, with no
handler, RTT.kill (R297, R298, R305). -/
def State.enterHandler (s : State) (ctx : Nat) : State :=
  match Map.find s.groups ctx with
  | none => s
  | some g =>
    match g.waves.findIdx? (fun w => w.halt.isTrapped) with
    | none => s
    | some wv =>
      match g.waves[wv]? with
      | none => s
      | some w =>
        match g.image.handler with
        | none => s.rttKill ctx wv g w
        | some off =>
          s.modWave ctx wv (fun w =>
            { w with
              slots := #v[{ (w.block.map (fun b => b.slots[b.trapSlot])).getD PathSlot.empty with
                live := true, pc := g.image.code + BitVec.ofNat 64 off, exec := w.living w.faultMask, hold := 0, pair := none, wait := none,
                starved := 0, yielded := false, rest := 0, spawned := 0, got := [] }, PathSlot.empty]
              stack := []
              spilled := 0
              halt := .handler })

/-- A wave of the group still has to stop (R293). -/
def Group.halting (g : Group) : Bool :=
  g.waves.any (fun w => w.halt.isStopping)

/-- The halt is broadcast to every other wave that has not ended (R293). -/
def Group.broadcast (g : Group) (wv : Nat) : Group :=
  { g with waves := g.waves.zipIdx.map (fun (w, i) => if i ≠ wv ∧ !w.ended ∧ w.halt = .running then { w with halt := .coming } else w) }

/-- A wave as a trap of its slot leaves it (R23, R24, R240, R292). -/
def Wave.trapAt (w : Wave) (k : Fin 2) (t : Trap) (pc cont : Addr) (entry : Option Nat) (mark clock : Nat) : Wave :=
  { w with
    frame := ⟨BitVec.ofNat 32 t.cause.code, pc, w.slots[k].exec, BitVec.ofNat 32 t.thread.val, t.telem, t.addr, 0, 0⟩
    faultMask := t.mask
    block := some ⟨w.slots, w.stack, w.spilled, k, cont, entry, mark, true, none, none, none⟩
    halt := .trapped t.mask clock }

/-- The trapped wave in its group: the halt is broadcast, and the handler comes at once where no sibling has to stop (R293, R297). -/
def State.enterTrap (s : State) (ctx wv : Nat) (g : Group) (w : Wave) : State :=
  let g1 := (g.setWave wv w).broadcast wv
  let s1 := s.modGroup ctx (fun _ => g1)
  if g1.halting then s1 else s1.enterHandler ctx

/-- A trap is taken in a wave (R43, R240, R291–R298): the frame, the reconvergence block, the halt of the siblings, and the
handler at once where no sibling has to stop. `pc` is TPC, `cont` the continuation point, `entry` the word's log entry. Of two waves of a
group that fault in one core clock, the lower one takes the trap (R295). -/
def State.trapIn (s : State) (ctx wv : Nat) (k : Fin 2) (t : Trap) (pc cont : Addr) (entry : Option Nat) : State :=
  match Map.find s.groups ctx with
  | none => s
  | some g =>
    match g.waves[wv]? with
    | none => s
    | some w =>
      let clock := (s.core g.core).clock.toNat
      match w.halt with
      | .skid words clocks => s.modWave ctx wv (fun w => w.stopSibling (some k) words clocks)
      | .handler =>
        (s.castGroup ctx g { cls := 0x01, cause := t.cause.code, addr := t.addr, data := t.telem, wave := wv, thread := t.thread.val }).killGroup
          ctx 2 t.cause.code
      | .coming =>
        match (g.waves.zipIdx.find? (fun x => decide (wv < x.2) && x.1.trappedAt clock)).map Prod.snd with
        | none => s.modWave ctx wv (fun w => w.stopSibling (some k) 0 0)
        | some v => s.enterTrap ctx wv (g.yieldTrap v) (w.trapAt k t pc cont entry s.nextId clock)
      | .running | .stopped | .trapped _ _ | .debug _ _ => s.enterTrap ctx wv g (w.trapAt k t pc cont entry s.nextId clock)

/-- The wave can take the trap of a word of a number now (R295, R298, R302). -/
def Wave.takes (w : Wave) (id : Nat) : Bool :=
  match w.halt with
  | .running => true
  | .handler => w.block.any (fun b => decide (b.mark ≤ id))
  | .coming | .skid _ _ | .stopped | .trapped _ _ | .debug _ _ => false

/-- A precise trap of the word the slot issues: TPC and C are the word's own address. -/
def State.takeTrap (s : State) (h : Here) (t : Trap) : State :=
  s.trapIn h.ctx h.wv h.k t h.w.slots[h.k].pc h.w.slots[h.k].pc none

/-- The undelivered fault of a wave that comes first in issue order among those a wait covers (R198, R299). -/
def Wave.firstFault (w : Wave) (covered : AsyncFault → Bool) : Option AsyncFault :=
  (w.faults.filter covered).foldl (fun best f =>
    match best with
    | none => some f
    | some b => if f.rank < b.rank then some f else some b) none

/-- The wave has taken a trap: it waits for its siblings, or its handler has been entered. -/
def Wave.tookTrap (w : Wave) : Bool := w.halt.isTrapped || w.halt == .handler

/-- A wave whose trap has delivered a fault: the fault is gone from its list and stands in its block. -/
def Wave.withoutFault (w : Wave) (f : AsyncFault) : Wave :=
  if w.tookTrap then
    { w with
      faults := w.faults.filter (fun x => x.cover != f.cover || x.rank != f.rank)
      block := w.block.map (fun b => { b with fault := some f }) }
  else w

/-- A fault that a trap has delivered; a wave that stops as a sibling keeps it (R295, R299). -/
def State.faultTaken (s : State) (ctx wv : Nat) (f : AsyncFault) : State := s.modWave ctx wv (fun w => w.withoutFault f)

/-- A fault delivered at the wait word: the trap, and the fault gone from the wave (R299). -/
def State.deliverFault (s : State) (h : Here) (f : AsyncFault) : State :=
  (s.takeTrap h { Trap.of f.cause (h.w.exec h.k) with addr := f.addr }).faultTaken h.ctx h.wv f

/-- A transaction overflow of a block barrier delivered at the wait word: the trap, and the mark gone from the barrier; a wave that stops
as a sibling leaves it there (R183, R295, R299). -/
def State.deliverOverflow (s : State) (h : Here) (index : Nat) : State :=
  let s1 := s.takeTrap h (Trap.of .barrierMisuse (h.w.exec h.k))
  if ((Map.find s1.groups h.ctx).bind (fun g => g.waves[h.wv]?)).any Wave.tookTrap then
    (s1.modBar .block h.ctx index (fun b => { b with overflow := false })).modWave h.ctx h.wv (fun w =>
      { w with block := w.block.map (fun b => { b with tx := some index }) })
  else s1

/-! ## Resuming (R300) -/

/-- A wave's path state restored from its block. -/
def Wave.restore (w : Wave) (b : Block) : Wave :=
  { w with slots := b.slots, stack := b.stack, spilled := b.spilled, badBlock := w.badBlock || !b.intact, block := none, halt := .running }

/-- Threads that died or exited in the handler leave the restored masks (R305). -/
def Wave.prune (w : Wave) : Wave :=
  { w with slots := w.slots.map (fun p => { p with exec := w.living p.exec, hold := w.living p.hold }) }

/-- A wave resumed from its block without the threads that have gone; a slot that has lost them all takes the steps of R151. -/
def Wave.goOn (w : Wave) (b : Block) (n : Nat) : Wave :=
  let w1 := (w.restore b).prune
  let next (k : Fin 2) : Addr := w1.slots[k].following
  (w1.settleKill 1 (next 1) n).settleKill 0 (next 0) n

/-- The siblings that the halt stopped go on (R219, R294). -/
def Group.releaseSiblings (g : Group) (n : Nat) : Group :=
  { g with waves := g.waves.map (fun w =>
      match w.halt, w.block with
      | .stopped, some b => w.goOn b n
      | .stopped, none => { w with halt := .running }
      | .coming, _ => { w with halt := .running }
      | .skid _ _, _ => { w with halt := .running }
      | .running, _ => w
      | .trapped _ _, _ => w
      | .handler, _ => w
      | .debug _ _, _ => w) }

/-- A word that may raise a trap: the next state, or the trap taken. -/
def State.orTrap (s : State) (h : Here) : Except Trap State → State
  | .ok s' => s'
  | .error t => s.takeTrap h t

/-- A word of the issuing slot whose outcome is a state or a trap. -/
def State.word (s : State) (f : Here → Except Trap State) : Host.Outcome State Fault Refusal :=
  match s.here with
  | none => .fault .noIssuingSlot
  | some h => .next (s.orTrap h (f h))

/-- The trap of a structure fault: TTHREAD the lowest thread of EXEC, the mask TMASK, NOEL (R146, R292). -/
def Here.structure (h : Here) : Trap := Trap.of .illegalConvergence (h.w.exec h.k)

/-- The covered threads of the issuing word. -/
def Here.cov (h : Here) (g : Guard) : Mask := h.w.cover h.k g

/-- The address of the issuing word. -/
def Here.pc (h : Here) : Addr := h.w.slots[h.k].pc

end Sys2Proof.Machine
end

