-- ==== Sys2Proof/Machine/Translate.lean ====
section
/-! DEFINITION. Device and host memory behind a leaf: placement over channels (R355), line keys and uncorrectable lines (R369),
the page walk (R346–R353), cached leaves (R352), fault records (R359). -/

namespace Sys2Proof.Machine

/-! ## Placement (R355) -/

/-- Bytes of the partition physical space. -/
def Partition.space (p : Partition) : Nat := p.coreList.length * Config.channelBytes

/-- The permuted stripe offset of swizzle codes 3–9. -/
def scatter (swz s : Nat) : Nat := if 3 ≤ swz then s ^^^ (s / 2 ^ (swz + 9) % 16 * 256) else s

/-- Channel of the partition and offset within the stripe's part of it. -/
def placeIn (nch swz s : Nat) : Nat × Nat :=
  if swz = 1 then (s / 65536, s % 65536)
  else if swz = 2 then
    (6 * (s / 393216) + s % 393216 / 4096 % 6, s % 393216 / 4096 / 6 * 4096 + s % 4096)
  else (scatter swz s / 4096 % nch, scatter swz s / 4096 / nch * 4096 + scatter swz s % 4096)

/-- Where a device byte of a partition is held: channel (a core number) × 1.5 GiB + channel offset. -/
def Partition.place (p : Partition) (swz a : Nat) : Nat :=
  let cores := p.coreList
  let stripe := cores.length * 65536
  let (ch, off) := placeIn cores.length swz (a % stripe)
  cores[ch]?.getD 0 * Config.channelBytes + a / stripe * 65536 + off

/-! ## Lines (R369) -/

/-- The key a line was last written under. -/
def State.keyOf (s : State) (part line : Nat) : Nat := Map.get s.lineKeys line (s.part part).formed.toNat

/-- A held byte reads correctly under a key. -/
def State.clean (s : State) (part ga key : Nat) : Bool := !s.badLines.contains (ga / 64) && s.keyOf part (ga / 64) == key

/-- A quarantined block loses a line that has been wholly overwritten (R366). -/
def Partition.overwritten (p : Partition) (line : Nat) : Partition :=
  { p with quarantine := (p.quarantine.map (fun b => (b.1, b.2.filter (fun l => l != line)))).filter (fun b => !b.2.isEmpty) }

/-- A line as a request writes it: wholly, under the key; or in part, where a line that does not read stays uncorrectable. -/
def State.formLine (s : State) (part key line : Nat) (whole : Bool) : State :=
  if whole then
    { s with
      badLines := s.badLines.filter (fun l => l != line)
      lineKeys := Map.set s.lineKeys line key (s.part part).formed.toNat
      parts := vmod s.parts part (fun p => p.overwritten line) }
  else if s.clean part (line * 64) key then s
  else { s with badLines := insertNat line s.badLines }

/-- Bytes of one request to a partition's device memory, later ones last (R159, R369). -/
def State.storeCells (s : State) (part key : Nat) (cells : List (Nat × Byte)) : State :=
  let lines := (cells.map (fun c => c.1 / 64)).dedup
  let s1 := lines.foldl (fun s line =>
    s.formLine part key line (decide (64 ≤ cells.length) &&
      (List.range 64).all (fun i => cells.any (fun c => c.1 == line * 64 + i)))) s
  { s1 with mem := cells.foldl (fun m c => Memory.write m c.1 c.2) s1.mem }

/-- Bytes as a little-endian number's, `n` of them. -/
def bytesOf (n x : Nat) : List Byte := (List.range n).map (fun i => BitVec.ofNat 8 (x / 256 ^ i))

/-! ## Records at partition physical addresses, placed with SWZ 0 under the primary key -/

/-- The bytes exist. -/
def State.inSpace (s : State) (part a n : Nat) : Bool := decide (a + n ≤ (s.part part).space)

/-- Bytes of a record. -/
def State.physBytes (s : State) (part a n : Nat) : List Byte :=
  (List.range n).map (fun i => Memory.read s.mem ((s.part part).place 0 (a + i)))

/-- A field of a record. -/
def State.physNat (s : State) (part a n : Nat) : Nat := leNat (s.physBytes part a n)

/-- Bytes of a record written; one beyond the partition's space stops the machine. -/
def State.physWrite (s : State) (part a : Nat) (bs : List Byte) : State :=
  if s.inSpace part a bs.length then
    s.storeCells part (s.part part).primary.toNat (bs.zipIdx.map (fun (b, i) => ((s.part part).place 0 (a + i), b)))
  else { s with beyond := some (part, a) }

/-! ## The walk -/

/-- Why a walk gives no leaf. -/
inductive WalkFail
  /-- an invalid or malformed entry (R351) -/
  | invalid
  /-- an uncorrectable entry, or one of a quarantined block: the 4 KiB block's partition physical address (R366) -/
  | poison (block : Nat)
  /-- an address the partition's physical space does not have -/
  | beyond (addr : Nat)
  deriving DecidableEq, Repr

/-- A leaf: its entry, the first address and size of its page, the entry's address, and the frame of each backing. -/
structure Leaf where
  entry : Nat
  va : Nat
  size : Nat
  addr : Nat
  frames : List Nat
  deriving DecidableEq, Repr

/-- Fields of a leaf entry (R350). -/
def Leaf.ty (l : Leaf) : Nat := bits l.entry 6 5
/-- KEY. -/
def Leaf.key (l : Leaf) : Nat := bits l.entry 16 11
/-- SWZ. -/
def Leaf.swz (l : Leaf) : Nat := bits l.entry 10 7
/-- BACK. -/
def Leaf.back (l : Leaf) : Nat := bits l.entry 18 17
/-- SEL. -/
def Leaf.sel (l : Leaf) : Nat := bits l.entry 21 19
/-- RD. -/
def Leaf.rd (l : Leaf) : Bool := l.entry.testBit 2
/-- WR. -/
def Leaf.wr (l : Leaf) : Bool := l.entry.testBit 3
/-- AT. -/
def Leaf.at' (l : Leaf) : Bool := l.entry.testBit 4

/-- An 8-byte word that a walk reads. -/
def State.tableWord (s : State) (part a : Nat) : Except WalkFail Nat :=
  let p := s.part part
  let ga := p.place 0 a
  if !s.inSpace part a 8 then .error (.beyond a)
  else if p.quarantine.any (fun b => b.1 == ga / 4096) || !s.clean part ga p.primary.toNat then
    .error (.poison (a - a % 4096))
  else .ok (s.physNat part a 8)

/-- The next table a table entry names, aligned to its size (R349, R351). -/
def nextTable (align e : Nat) : Except WalkFail Nat :=
  if e.testBit 0 && !e.testBit 1 && bits e 63 52 == 0 && bits e 11 2 == 0 && bits e 51 12 * 4096 % align == 0 then
    .ok (bits e 51 12 * 4096)
  else .error .invalid

/-- The page size of a valid leaf. -/
def leafSize (level e : Nat) : Nat := if level = 1 then 2 ^ 29 else if e.testBit 22 then 2 ^ 21 else 2 ^ 16

/-- A valid leaf's reserved fields, codes and flags (R351). -/
def leafForm (level e : Nat) : Bool :=
  e.testBit 1 && bits e 27 23 == 0 && bits e 18 17 != 3 && decide (bits e 10 7 ≤ 9) &&
  (!e.testBit 4 || (e.testBit 2 && e.testBit 3)) &&
  (level == 0 || (!e.testBit 22 && bits e 18 17 == 0)) &&
  (!e.testBit 22 || bits e 18 17 == 0) &&
  (if bits e 18 17 = 0 then bits e 21 19 == 0
   else if bits e 18 17 = 1 then decide (bits e 21 19 ≤ 1)
   else decide (1 ≤ bits e 21 19))

/-- A frame fits its leaf: alignment, type, swizzle, the physical space (R351, R354). -/
def frameOk (space level e pa : Nat) : Bool :=
  let ty := bits e 6 5
  pa % leafSize level e == 0 &&
  bits pa 51 48 == (if ty = 0 then 0 else if ty = 2 then 2 else 1) &&
  (ty == 0 || bits e 10 7 == 0) &&
  (ty != 0 || decide (pa + leafSize level e ≤ space))

/-- The frames of a leaf: its own, or those of its backing block (R357). -/
def State.frames (s : State) (part asd e : Nat) : Except WalkFail (List Nat) :=
  if bits e 18 17 = 0 then .ok [bits e 63 28 * 65536]
  else do
    let btab ← s.tableWord part (asd + 16)
    let btn ← s.tableWord part (asd + 32)
    if bits e 63 28 < btn % 2 ^ 32 then
      (List.range (if bits e 18 17 = 1 then 2 else bits e 21 19 + 1)).mapM (fun j => do
        let x ← s.tableWord part (btab + 64 * bits e 63 28 + 8 * j)
        .ok (bits x 63 28 * 65536))
    else .error .invalid

/-- The leaf a level-1 or level-0 entry makes. -/
def State.leafOf (s : State) (part asd level e addr va : Nat) : Except WalkFail Leaf :=
  if !(e.testBit 0 && leafForm level e) then .error .invalid
  else do
    let fs ← s.frames part asd e
    if fs.all (frameOk (s.part part).space level e) then
      .ok ⟨e, va - va % leafSize level e, leafSize level e, addr, fs⟩
    else .error .invalid

/-- The address of an address space's descriptor (R346). -/
def State.asd (s : State) (part asid : Nat) : Nat := (s.part part).asdBase.toNat + 64 * asid

/-- A walk (R352): the leaf that maps a 57-bit address. A core may cache table entries too; here every walk reads them (DESIGN CHOICE, log
entry 11). -/
def State.walk (s : State) (part asid va : Nat) : Except WalkFail Leaf := do
  let root ← s.tableWord part (s.asd part asid + 8)
  let e3 ← s.tableWord part (root + 8 * bits va 56 47)
  let t2 ← nextTable 4096 e3
  let e2 ← s.tableWord part (t2 + 8 * bits va 46 38)
  let t1 ← nextTable 4096 e2
  let e1 ← s.tableWord part (t1 + 8 * bits va 37 29)
  if e1.testBit 0 && e1.testBit 1 then s.leafOf part (s.asd part asid) 1 e1 (t1 + 8 * bits va 37 29) va
  else
    let t0 ← nextTable 65536 e1
    let e0 ← s.tableWord part (t0 + 8 * bits va 28 16)
    s.leafOf part (s.asd part asid) 0 e0 (t0 + 8 * bits va 28 16) va

/-! ## Cached leaves (R352, R361) -/

/-- The cached leaves of the address space's current generation that cover an address, newest first. -/
def Core.cached (c : Core) (asid gen : BitVec 16) (va : Nat) : List TlbEntry :=
  c.tlb.filter (fun e => e.asid == asid && e.gen == gen && decide (e.va ≤ va) && decide (va < e.va + e.size))

/-- A leaf enters a core's TLB of 2,048 entries (R256). -/
def Core.cache (c : Core) (asid gen : BitVec 16) (l : Leaf) : Core :=
  let e : TlbEntry := ⟨asid, gen, l.va, l.size, BitVec.ofNat 64 l.entry, l.addr, l.frames⟩
  if c.tlb.contains e then c else { c with tlb := (e :: c.tlb.filter (fun x => !(x.asid == asid && x.va == l.va && x.size == l.size))).take 2048 }

/-- The leaf a cached entry holds: no table block is read for it again (R366). -/
def TlbEntry.held (e : TlbEntry) : Leaf := ⟨e.leaf.toNat, e.va, e.size, e.addr, e.frames⟩

/-- A cached leaf leads elsewhere, or grants otherwise, than the walk's. -/
def Leaf.differs (a b : Leaf) : Bool := a.entry != b.entry || a.frames != b.frames

/-- A cached leaf used in place of the walk's, if any is: which one is free. -/
def pickCached (draw : Nat) : List Leaf → Option Leaf
  | [] => none
  | l :: ls => if Config.useCached (draw + ls.length) then some l else pickCached draw ls

/-- The translation of an address for a core: the walk's leaf, or one that the core still holds cached where it differs; an address
whose own entry is invalid is translated by a cached BIG entry of its range, if there is one (R352). -/
def State.translate (s : State) (core part : Nat) (asid : BitVec 16) (va : Nat) : State × Except WalkFail Leaf :=
  let walked := s.walk part asid.toNat va
  let held := ((s.core core).cached asid (s.gen asid.toNat) va).map (fun e => (e, e.held))
  let big := (held.find? (fun e => e.1.size == 2 ^ 21)).map Prod.snd
  let others := (held.map Prod.snd).filter (fun l => match walked with
    | .ok w => w.differs l
    | .error _ => true)
  let s1 := if others.isEmpty then s else { s with fresh := s.fresh + others.length }
  match pickCached s.fresh others, walked, big with
  | some l, _, _ => (s1, .ok l)
  | none, .ok l, _ => (if held.any (fun e => !e.2.differs l) then s1 else s1.modCore core (fun c => c.cache asid (s.gen asid.toNat) l), walked)
  | none, .error .invalid, some l => (s1, .ok l)
  | none, .error _, _ => (s1, walked)

/-- A walk met a poisoned block (R366): quarantine, a machine check on the TDI's error vector, an event with the block's address. -/
def State.poisonMet (s : State) (core part : Nat) (asid : BitVec 16) (block : Nat) : State :=
  let ga := (s.part part).place 0 block
  let s1 := s.modPart part (fun p =>
    { p with
      machineChecks := p.machineChecks + 1
      quarantine := if p.quarantine.any (fun b => b.1 == ga / 4096) then p.quarantine
        else p.quarantine ++ [(ga / 4096, (List.range 64).map (fun i => ga / 64 + i))] })
  (s1.send (.msix part 0)).cast (clusterOf core) { cls := 0x0A, cause := 0, addr := BitVec.ofNat 64 block, data := asid.setWidth 32, part := part, core := core, priv := true }

/-! ## What a leaf grants (R353, R354) -/

/-- What an access asks of a leaf. -/
inductive Need
  | read | write | atomic | fetch | engineRead | engineWrite | engineAtomic | memside | memsideLoad
  deriving DecidableEq, Repr

/-- KIND of a fault record (R359). -/
def Need.kind : Need → Nat
  | .read => 0 | .write => 1 | .atomic => 2 | .fetch => 3 | .engineRead => 4 | .engineWrite => 5 | .engineAtomic => 5
  | .memside => 2 | .memsideLoad => 0

/-- The backing an access uses: copies write the shadow of a twin page (R357). -/
def Leaf.backing (l : Leaf) (tag : Nat) (copyWrite : Bool) : Option Nat :=
  match l.back with
  | 0 => some 0
  | 1 => some (if copyWrite then 1 - l.sel % 2 else l.sel % 2)
  | _ => if tag ≤ l.sel then some tag else none

/-- Where an access goes. -/
inductive Target
  /-- device memory of a partition: where it is held, and the leaf's key -/
  | dev (ga key : Nat)
  | host (a : Nat)
  | mmio (a : Nat)
  /-- peer memory: window and device address -/
  | peer (window addr : Nat)
  /-- local scratchpad of a context -/
  | scratch (ctx off : Nat)
  /-- cluster scratchpad share of a gang -/
  | share (gang off : Nat)
  deriving DecidableEq, Repr

/-- The engines write the shadow of a twin page. -/
def Need.copyWrite (n : Need) : Bool := n == .engineWrite || n == .engineAtomic

/-- The engines touch no MMIO page. -/
def Need.engine : Need → Bool
  | .engineRead | .engineWrite | .engineAtomic => true
  | .read | .write | .atomic | .fetch | .memside | .memsideLoad => false

/-- The leaf's own permission for a need. -/
def Leaf.grants (l : Leaf) : Need → Bool
  | .read | .engineRead => l.rd
  | .write | .engineWrite => l.wr
  | .atomic | .engineAtomic => l.at' && l.ty != 3
  | .fetch => l.rd && l.ty == 0
  | .memside => l.at' && l.ty == 0
  | .memsideLoad => l.rd && l.ty == 0

/-- What lies behind a leaf, whatever it permits (R354, R357, R378). -/
def State.behindLeaf (s : State) (part : Nat) (l : Leaf) (copyWrite : Bool) (tag va : Nat) : Option Target :=
  let p := s.part part
  match (l.backing tag copyWrite).bind (fun i => l.frames[i]?) with
  | none => none
  | some f =>
    let pa := f + va % l.size
    match l.ty with
    | 0 => some (.dev (p.place l.swz pa) l.key)
    | 1 => some (.host (pa % 2 ^ 48))
    | 2 => if (Map.get p.peers (bits pa 47 40) 0).getLsbD 63 then some (.peer (bits pa 47 40) (pa % 2 ^ 40)) else none
    | _ => some (.mmio (pa % 2 ^ 48))

/-- Where a leaf sends an access, if it grants it (R353, R354). -/
def State.granted (s : State) (part : Nat) (l : Leaf) (need : Need) (tag va : Nat) : Option Target :=
  if !((s.part part).ownsKey l.key && l.grants need && !(need.engine && l.ty == 3)) then none
  else s.behindLeaf part l need.copyWrite tag va

/-- The 57 bits of a canonical address; `none` for a non-canonical one (R435). -/
def canonical (a : Addr) : Option Nat :=
  if a = (a.extractLsb' 0 57).signExtend 64 then some (a.extractLsb' 0 57).toNat else none

/-! ## Fault records (R359) -/

/-- The pending record of a core's page, or a new one; its token. -/
def State.faultRec (s : State) (core part : Nat) (asid : BitVec 16) (va : Nat) (need : Need) : State × Nat :=
  let page := va - va % 65536
  match s.faultRecs.find? (fun r => r.2.part == part && r.2.core == core && r.2.asid == asid && r.2.va.toNat % 2 ^ 57 / 65536 == page / 65536) with
  | some r => (s, r.1)
  | none =>
    ({ s.takeId with
       faultRecs := Map.insert s.faultRecs s.nextId
         ⟨part, asid, core, (BitVec.ofNat 57 va).signExtend 64, BitVec.ofNat 8 need.kind, none⟩ }, s.nextId)

/-- The address space has a fault queue (FQLOG ≠ 0). -/
def State.hasQueue (s : State) (part asid : Nat) : Bool := s.physNat part (s.asd part asid + 36) 1 % 16 != 0

/-- A record written to its queue if there is room, then TAIL (R359). DESIGN CHOICE (log entry 94): the reserved values 1 to 3 of FQLOG count as a queue
of 2^FQLOG records, as the others do. -/
def State.writeRecord (s : State) (token : Nat) : State :=
  match Map.find s.faultRecs token with
  | none => s
  | some r =>
    let asd := s.asd r.part r.asid.toNat
    let fq := s.physNat r.part (asd + 24) 8
    let log := s.physNat r.part (asd + 36) 1 % 16
    let head := s.physNat r.part fq 4
    let tail := s.physNat r.part (fq + 4) 4
    if r.index.isSome || log == 0 || (tail + 2 ^ 32 - head) % 2 ^ 32 == 2 ^ log then s
    else
      let rec_ := bytesOf 16 0 ++ bytesOf 4 token ++ bytesOf 1 r.kind.toNat ++ bytesOf 1 r.core ++ bytesOf 2 r.asid.toNat ++
        bytesOf 8 r.va.toNat
      let s1 := s.physWrite r.part (fq + 64 + 32 * (tail % 2 ^ log)) rec_
      let s2 := s1.physWrite r.part (fq + 4) (bytesOf 4 (tail + 1))
      { s2 with faultRecs := Map.modify s2.faultRecs token (fun r => { r with index := some tail }) }

/-- A faulting page's record; it is written at once where nothing stays queued. -/
def State.reportFault (s : State) (core part : Nat) (asid : BitVec 16) (va : Nat) (need : Need) : State × Nat :=
  let (s1, token) := s.faultRec core part asid va need
  (if s1.deferred then s1 else s1.writeRecord token, token)

end Sys2Proof.Machine
end

