-- ==== Sys2Proof/Machine/Reach.lean ====
section
/-! DEFINITION. Reading and writing where accesses land: device, host and MMIO memory, scratchpads (R158, R253, R303, R354, R369). -/

namespace Sys2Proof.Machine

/-! ## Scratch addresses (R158) -/

/-- Where `n` bytes at a scratch address of a group lie; `none` when the access is not permitted. -/
def State.scratchAt (s : State) (ctx : Nat) (g : Group) (a : Word) (n : Nat) : Option Target :=
  let off := a.toNat % 2 ^ 30
  match a.toNat / 2 ^ 30 with
  | 0 => if off + n ≤ g.image.scratch then some (.scratch ctx off) else none
  | 1 =>
    match s.gangOf g with
    | none => none
    | some gg => if 0 < g.image.clusterN ∧ off + n ≤ gg.share then some (.share g.gang off) else none
  | 2 =>
    let core := off / 2 ^ 27
    let low := off % 2 ^ 27
    if core = g.core % Config.coresPerCluster then if low + n ≤ g.image.scratch then some (.scratch ctx low) else none
    else if g.image.clusterN = 0 then none
    else
      match s.gangOf g with
      | none => none
      | some gg =>
        match gg.members.findSome? (fun c => (Map.find s.groups c).bind (fun x => if x.core % Config.coresPerCluster = core then some (c, x) else none)) with
        | none => none
        | some (c, x) => if low + n ≤ x.image.scratch then some (.scratch c low) else none
  | _ => none

/-! ## Reading -/

/-- Bytes from a place on with those that are uncorrectable replaced by free values, and whether there are any (R303). -/
def State.sift (s : State) (base : Nat) (bs : List Byte) (bad : Nat → Bool) : State × List Byte × Bool :=
  if (List.range bs.length).any bad then
    (s.draw, bs.zipIdx.map (fun (b, i) => if bad i then Config.freeByte s.fresh (base + i) else b), true)
  else (s, bs, false)

/-- `n` bytes at a target, and whether any is uncorrectable; an uncorrectable byte is read as a free value, and an MMIO read draws
the value another agent gives. -/
def State.readAt (s : State) (part : Nat) (t : Target) (n : Nat) : State × List Byte × Bool :=
  match t with
  | .dev ga key => s.sift ga (Memory.readBytes s.mem ga n) (fun i => !s.clean part (ga + i) key)
  | .host a => s.sift a (Memory.readBytes s.hostMem a n) (fun i => s.badHost.contains ((a + i) / 64))
  | .mmio _ => (s.draw, bytesOf n (Config.mmioRead s.fresh).toNat, false)
  | .peer _ _ => (s, List.replicate n 0, false)
  | .scratch ctx off =>
    match Map.find s.groups ctx with
    | none => (s, List.replicate n 0, false)
    | some g => s.sift off ((List.range n).map (fun i => Map.get g.scratch (off + i) 0)) (fun i => g.badScratch.contains ((off + i) / 4))
  | .share gang off =>
    match Map.find s.gangs gang with
    | none => (s, List.replicate n 0, false)
    | some g => s.sift off ((List.range n).map (fun i => Map.get g.scratch (off + i) 0)) (fun i => g.badScratch.contains ((off + i) / 4))

/-! ## Writing -/

/-- One run of bytes written at a target: a byte that is `none` is left as it is. -/
structure Put where
  at_ : Target
  bytes : List (Option Byte)
  deriving DecidableEq, Repr

/-- The cells a run of bytes gives from an address up. -/
def Put.cells (base : Nat) (bs : List (Option Byte)) : List (Nat × Byte) :=
  bs.zipIdx.filterMap (fun (b, i) => b.map (fun x => (base + i, x)))

/-- Uncorrectable words of a scratchpad after a write: those it overwrites wholly become clean (R303). -/
def stillBad (bad : List Nat) (cells : List (Nat × Byte)) : List Nat :=
  bad.filter (fun w => !(List.range 4).all (fun i => cells.any (fun c => c.1 == 4 * w + i)))

/-- The words of a scratchpad that a run of bytes touches, marked uncorrectable. -/
def markBad (bad : List Nat) (off n : Nat) : List Nat :=
  (List.range ((off + n - 1) / 4 - off / 4 + 1)).foldl (fun l i => insertNat (off / 4 + i) l) bad

/-- Bytes into a group's scratchpad; a word wholly overwritten becomes clean (R303). -/
def Group.scratchWrite (g : Group) (cells : List (Nat × Byte)) : Group :=
  { g with
    scratch := cells.foldl (fun m c => Map.set m c.1 c.2 0) g.scratch
    badScratch := stillBad g.badScratch cells }

/-- The device-memory cells of a key among the runs of one request. -/
def devCells (puts : List Put) (key : Nat) : List (Nat × Byte) :=
  (puts.map (fun p => match p.at_ with
    | .dev ga k => if k = key then Put.cells ga p.bytes else []
    | .host _ | .mmio _ | .peer _ _ | .scratch _ _ | .share _ _ => [])).flatten

/-- The keys of the device-memory runs of one request. -/
def devKeys (puts : List Put) : List Nat :=
  (puts.filterMap (fun p => match p.at_ with
    | .dev _ k => some k
    | .host _ | .mmio _ | .peer _ _ | .scratch _ _ | .share _ _ => none)).dedup

/-- A run that does not land in device memory, written. -/
def State.putOther (s : State) (p : Put) : State :=
  match p.at_ with
  | .dev _ _ => s
  | .peer _ _ => s
  | .host a => { s with hostMem := (Put.cells a p.bytes).foldl (fun m c => Memory.write m c.1 c.2) s.hostMem }
  | .mmio a => s.send (.mmioWrite a p.bytes)
  | .scratch ctx off => s.modGroup ctx (fun g => g.scratchWrite (Put.cells off p.bytes))
  | .share gang off => s.modGang gang (fun g =>
      { g with
        scratch := (Put.cells off p.bytes).foldl (fun m c => Map.set m c.1 c.2 0) g.scratch
        badScratch := stillBad g.badScratch (Put.cells off p.bytes) })

/-- The cells that runs put at the targets a base is found for. -/
def cellsWhere (puts : List Put) (base : Target → Option Nat) : List (Nat × Byte) :=
  puts.flatMap (fun p => match base p.at_ with
    | none => []
    | some b => Put.cells b p.bytes)

/-- Where a target lies in host memory. -/
def Target.inHost : Target → Option Nat
  | .host a => some a
  | .dev _ _ | .mmio _ | .peer _ _ | .scratch _ _ | .share _ _ => none

/-- Where a target lies in a context's scratchpad. -/
def Target.inScratch (ctx : Nat) : Target → Option Nat
  | .scratch c off => if c = ctx then some off else none
  | .dev _ _ | .host _ | .mmio _ | .peer _ _ | .share _ _ => none

/-- Where a target lies in a gang's share of the cluster scratchpad. -/
def Target.inShare (gang : Nat) : Target → Option Nat
  | .share g off => if g = gang then some off else none
  | .dev _ _ | .host _ | .mmio _ | .peer _ _ | .scratch _ _ => none

/-- The line of host memory, or the scratch words, that several runs of a request have overwritten together become clean (R303). -/
def State.cleaned (s : State) (puts : List Put) (p : Put) : State :=
  match p.at_ with
  | .host a =>
    let cells := cellsWhere puts Target.inHost
    { s with badHost := s.badHost.filter (fun l => l != a / 64 || !(List.range 64).all (fun i => cells.any (fun c => c.1 == 64 * l + i))) }
  | .scratch ctx _ => s.modGroup ctx (fun g => { g with badScratch := stillBad g.badScratch (cellsWhere puts (Target.inScratch ctx)) })
  | .share gang _ => s.modGang gang (fun g => { g with badScratch := stillBad g.badScratch (cellsWhere puts (Target.inShare gang)) })
  | .dev _ _ | .mmio _ | .peer _ _ => s

/-- The runs of one request written in order, a later one over an earlier (R159). -/
def State.putAll (s : State) (part : Nat) (puts : List Put) : State :=
  puts.foldl (fun s p => s.cleaned puts p)
    (puts.foldl State.putOther ((devKeys puts).foldl (fun s k => s.storeCells part k (devCells puts k)) s))

/-- Bytes that an engine read uncorrectable are written poisoned (R303). -/
def State.poisonAt (s : State) (t : Target) (n : Nat) : State :=
  match t with
  | .dev ga _ => { s with badLines := insertNat ((ga + n - 1) / 64) (insertNat (ga / 64) s.badLines) }
  | .host a => { s with badHost := insertNat ((a + n - 1) / 64) (insertNat (a / 64) s.badHost) }
  | .mmio _ => s
  | .peer _ _ => s
  | .scratch ctx off => s.modGroup ctx (fun g => { g with badScratch := markBad g.badScratch off n })
  | .share gang off => s.modGang gang (fun g => { g with badScratch := markBad g.badScratch off n })

/-! ## One 4- or 8-byte word at a target as a step of its own (R168) -/

/-- The word found, whether it is uncorrectable, and the state with a new value stored. -/
def State.exchange (s : State) (part : Nat) (t : Target) (n : Nat) (f : Nat → Nat) : State × Nat × Bool :=
  let (s1, bs, bad) := s.readAt part t n
  if bad then (s1, 0, true)
  else (s1.putAll part [⟨t, (bytesOf n (f (leNat bs))).map some⟩], leNat bs, false)

end Sys2Proof.Machine
end

