-- ==== Sys2Proof/Machine/Remote.lean ====
section
/-! DEFINITION. The requester's side of the fabric: outstanding lanes, serials, transmissions (R380–R387). -/

namespace Sys2Proof.Machine

/-- A remote operation that carries a serial (R381). -/
def opWrites : FabricOp → Bool
  | .load _ => false
  | .store _ _ _ _ | .atomic _ _ _ | .cas _ _ _ | .red _ _ _ | .contribution _ _ _ _ | .result _ _ _ _ _ => true

/-- An operation that its reply has not ended. -/
def RemoteOp.open_ (o : RemoteOp) : Bool := o.status == .waiting || o.status == .queued

/-- The cause of a failed lane (R302, R361, R380, R386). -/
def RemoteState.cause : RemoteState → Cause
  | .indeterminate => .remoteIndeterminate
  | .unmapped => .pageFault
  | .poisoned => .translationPoison
  | .denied | .queued | .waiting => .permission

/-- A remote write that comes before a slot's words has no reply yet (R266, R380). -/
def State.unanswered (s : State) (ctx wv : Nat) (p : PathSlot) : Bool :=
  s.remote.any (fun o => o.2.ctx == ctx && o.2.wave == wv && (o.2.slot == p.label || decide (o.2.word < p.afterAll)) && o.2.cover.isNone &&
    o.2.coll.isNone && opWrites o.2.op && o.2.open_)

/-- A remote write of a wave's words has no reply yet, or has failed and has not raised its cause: what its ending word waits for, so that no
wave ends with one (R380, R386). -/
def State.waveUnanswered (s : State) (ctx wv : Nat) : Bool :=
  s.remote.any (fun o => o.2.ctx == ctx && o.2.wave == wv && o.2.cover.isNone && o.2.coll.isNone && opWrites o.2.op)

/-- A peer-table entry (R378). -/
def State.peer (s : State) (part window : Nat) : BitVec 64 := Map.get (s.part part).peers window 0

/-- The partition that an operation belongs to: that of its group, or of its launch. -/
def State.opPart (s : State) (o : RemoteOp) : Option Nat :=
  match Map.find s.groups o.ctx, o.cover with
  | some g, _ => some g.part
  | none, some (.launch l) => (Map.find s.launches l).map (fun x => x.part)
  | none, _ => none

/-- The next serial of a context, resident or saved; that of a completion word has sent one. -/
def State.nextSerial (s : State) (ctx : Nat) : Word :=
  match Map.find s.groups ctx with
  | some g => g.serial
  | none =>
    match s.saved.findSome? (fun x => (x.2.groups.find? (fun g => g.ctx == ctx)).map (fun g => g.group.serial)) with
    | some n => n
    | none => if s.remote.any (fun o => o.2.ctx == ctx && o.2.serial.isSome) then 1 else 0

/-- The watermark of a context (R383): its oldest unanswered serial, else the next one. -/
def State.watermark (s : State) (ctx : Nat) : Word :=
  let next := s.nextSerial ctx
  let held := s.remote.filterMap (fun p => if p.2.ctx = ctx ∧ p.2.open_ then p.2.serial else none)
  next - BitVec.ofNat 32 (held.foldl (fun m x => max m (next - x).toNat) 0)

/-! ## Ports and frames (R384, R390–R393) -/

/-- The port number that stands for the splice. -/
def splicePort : Nat := 12

/-- A port, or the splice. -/
def State.port (s : State) (p : Nat) : Port := if p = splicePort then s.splice else vget s.ports p Port.reset

/-- A port changed. -/
def State.modPort (s : State) (p : Nat) (f : Port → Port) : State :=
  if p = splicePort then { s with splice := f s.splice } else { s with ports := vmod s.ports p f }

/-- A port has a lane in service. -/
def Port.up (p : Port) : Bool := p.lanes.any (fun l => !l.retired)

/-- The port that traffic of a port takes: another one where it has no lane left (R391). -/
def State.route (s : State) (port : Nat) : Nat :=
  if (s.port port).up then port else ((List.range 12).find? (fun q => (s.port q).up)).getD port

/-- Flits of 256 bytes that a frame takes: those of the elements it carries, at least one (R390; log entry 85). -/
def Sent.flits : Sent → Nat
  | .request _ _ _ req =>
    match req.op with
    | .contribution _ _ _ data => max 1 ((4 * data.length + 255) / 256)
    | .load _ | .store _ _ _ _ | .atomic _ _ _ | .cas _ _ _ | .red _ _ _ | .result _ _ _ _ _ => 1
  | _ => 1

/-- Flits that enter a port's replay buffer, which keeps the newest 512 (R390). -/
def Port.store (p : Port) (x : Sent) : Port :=
  { p with replay := (((List.range x.flits).map (fun i => (x, i))).reverse ++ p.replay).take 512 }

/-- A frame leaves a port, or is held while its lanes retrain (R390, R391). -/
def State.pass (s : State) (port : Nat) (x : Sent) : State :=
  if (s.port port).retraining.isSome then s.modPort port (fun p => { p with held := p.held ++ [x] })
  else (s.send x).modPort port (fun p => p.store x)

/-- A port's lanes have retrained: what it held goes out in order, by another port where it has lost its last lane meanwhile (R391). -/
def State.endRetrain (s : State) (port : Nat) : State :=
  (s.port port).held.foldl (fun s x => s.pass (s.route port) x) (s.modPort port (fun p => { p with retraining := none, held := [] }))

/-- A port has held its traffic for 40 µs, the most it may (R391). -/
def Port.overdue (p : Port) (now : Nat) : Bool := p.retraining.any (fun t => decide (t + 40000 ≤ now))

/-- A frame sent by a port or, where that has no lane left, by another (R390, R391). -/
def State.sendOn (s : State) (port : Nat) (x : Sent) : State :=
  let q := s.route port
  (if (s.port q).overdue s.now then s.endRetrain q else s).pass q x

/-- The slices of a message, one on each spray port (R393). -/
def State.slices (s : State) (x : Sent) : State := (List.range 5).foldl (fun s i => s.sendOn i (.slice i x)) s

/-- A privileged message is sprayed (R393). -/
def State.spray (s : State) (x : Sent) : State := { s.takeId with sprays := Map.insert s.sprays s.nextId (x, s.now) }.slices x

/-- The link key of a partition's window in one direction, or the firmware's with a peer device (R392). -/
def State.linkKey (s : State) (part : Option Nat) (window : Nat) (outbound : Bool) : Option LinkKey :=
  s.linkKeys.find? (fun k => k.part == part && k.window == window && k.outbound == outbound)

/-- That link key changed. -/
def State.modLinkKey (s : State) (part : Option Nat) (window : Nat) (outbound : Bool) (f : LinkKey → LinkKey) : State :=
  { s with linkKeys := s.linkKeys.map (fun k => if k.part == part && k.window == window && k.outbound == outbound then f k else k) }

/-- The sender's key after a frame: it is updated before its counter reaches 2^48 (R392). -/
def LinkKey.sent (k : LinkKey) : LinkKey :=
  if 2 ^ 48 ≤ k.counter + 1 then { k with index := k.index + 1, counter := 0 } else { k with counter := k.counter + 1 }

/-- The seal of the next frame under a key (R384, R392). -/
def State.seal (s : State) (part : Option Nat) (window : Nat) : Seal :=
  let k := s.linkKey part window true
  ⟨(k.map (fun k => k.index)).getD 0, (k.map (fun k => k.counter)).getD 0, s.now, true⟩

/-- A frame has been sealed. -/
def State.sealed (s : State) (part : Option Nat) (window : Nat) : State := s.modLinkKey part window true LinkKey.sent

/-! ## Transmissions (R380–R387) -/

/-- A transmission of an operation, under the epoch its peer-table entry holds (R381, R383–R385, R387, R392). -/
def State.transmit (s : State) (id : Nat) : State :=
  match Map.find s.remote id with
  | none => s
  | some o =>
    match s.opPart o with
    | none => s
    | some part =>
      let e := s.peer part o.window
      let req : FabricReq :=
        { tpart := e.extractLsb' 44 5
          pair := ⟨s.devId, BitVec.ofNat 5 part, BitVec.ofNat 32 o.ctx⟩
          serial := o.serial
          wm := s.watermark o.ctx
          epoch := e.extractLsb' 0 32
          addr := o.addr
          op := o.op
          frame := s.seal (some part) o.window }
      { (s.sealed (some part) o.window).sendOn (Config.portFor id % 12) (.request id (e.extractLsb' 32 12) (e.extractLsb' 44 5) req) with
        remote := Map.modify s.remote id (fun o => { o with lastSent := s.now, sends := o.sends + 1 }) }

/-- The first transmission of a lane; `epoch` keeps the owner's epoch as it is known then (R386, R387). -/
def State.sendFirst (s : State) (id : Nat) : State :=
  match Map.find s.remote id with
  | none => s
  | some o =>
    match s.opPart o with
    | none => s
    | some part =>
      ({ s with
         remote := Map.modify s.remote id (fun o =>
           { o with
             epoch := (s.peer part o.window).extractLsb' 0 32
             firstSent := s.now
             lastSent := s.now
             sends := 0
             interval := 50000
             status := .waiting }) }).transmit id

/-- The owner that an operation goes to: peer device and partition. -/
def State.ownerOf (s : State) (o : RemoteOp) : BitVec 17 := (s.peer ((s.opPart o).getD 0) o.window).extractLsb' 32 17

/-- An earlier remote write of the slot to the same 64-byte line is unanswered (R380). -/
def State.behind (s : State) (id : Nat) (o : RemoteOp) : Bool :=
  opWrites o.op && s.remote.any (fun p => decide (p.1 < id) && p.2.open_ && opWrites p.2.op && p.2.ctx == o.ctx &&
    p.2.wave == o.wave && p.2.slot == o.slot && p.2.word != o.word && s.ownerOf p.2 == s.ownerOf o &&
    p.2.addr.toNat / 64 == o.addr.toNat / 64)

/-- The generation of a context's address space. -/
def State.genOf (s : State) (ctx : Nat) : Option (BitVec 16) := (Map.find s.groups ctx).map (fun g => s.gen g.asid.toNat)

/-- A lane enters the outstanding list, under the generation that it was translated by, and a write takes its serial (R381); it is sent
unless an earlier write of its line holds it. -/
def State.startRemote (s : State) (o : RemoteOp) : State :=
  let id := s.nextId
  let writes := opWrites o.op
  let o1 := { o with status := .queued, gen := s.genOf o.ctx, serial := if writes then some (s.nextSerial o.ctx) else none }
  let s0 := if writes then s.modGroup o.ctx (fun g => { g with serial := g.serial + 1 }) else s
  let s1 := { s0.takeId with remote := Map.insert s0.remote id o1 }
  if s1.behind id o1 then s1 else s1.sendFirst id

/-- So many more lanes, and so many writes among them, would pass the outstanding list of 768 (R256, R380) or 2^20 serials (R384). -/
def State.remoteFull (s : State) (core ctx lanes writes : Nat) : Bool :=
  decide (0 < lanes) && (decide (Config.requestsInFlight < (s.remote.filter (fun p => p.2.core == core)).length + lanes) ||
    (decide (0 < writes) && decide (2 ^ 20 < (s.nextSerial ctx - s.watermark ctx).toNat + writes)))

end Sys2Proof.Machine
end

