-- ==== Sys2Proof/Machine/Array.lean ====
section
/-! DEFINITION. The ternary array's arithmetic: encodings of trits (R58–R62), bands and planes (R63–R68), check vectors (R214),
conversion of an element (R69, R70), stored images (R202, R203), occupancy (R278–R280). -/

namespace Sys2Proof.Machine

/-! ## Trits -/

/-- The trit of a base-3 digit (R58). -/
def tritOf (d : Nat) : Int := if d = 1 then 1 else if d = 2 then -1 else 0

/-- The digit of a trit. -/
def digitOf (t : Int) : Nat := if t = 1 then 1 else if t = -1 then 2 else 0

/-- The register trit code of trit i, 0–3 (R62). -/
def tritCode (x : Word) (i : Nat) : Nat := x.toNat / 4 ^ i % 4

/-- The trit of a register code. -/
def codeTrit (c : Nat) : Int := if c = 1 then 1 else if c = 3 then -1 else 0

/-- The register code of a trit. -/
def tritBits (t : Int) : Nat := if t = 1 then 1 else if t = -1 then 3 else 0

/-- A register that holds a code 0b10. -/
def badTrits (x : Word) : Bool := (List.range 16).any (fun i => tritCode x i == 2)

/-- Trit i of a T5 byte string (R59). -/
def t5Trit (bs : List Byte) (i : Nat) : Int := tritOf ((bs[i / 5]?.getD 0).toNat / 3 ^ (i % 5) % 3)

/-- The T5 byte of up to five trits. -/
def t5Byte (ts : List Int) : Nat := ts.foldr (fun t n => n * 3 + digitOf t) 0

/-- The legal masks of R61: exactly two set bits in every row and column, ascending; built of the six two-bit rows. -/
def t24Masks : List Nat :=
  let rows := [3, 5, 6, 9, 10, 12]
  rows.flatMap (fun d => rows.flatMap (fun c => rows.flatMap (fun b => rows.filterMap (fun a =>
    if (List.range 4).all (fun j => [a, b, c, d].countP (fun r => r / 2 ^ j % 2 == 1) == 2)
    then some (a + 16 * b + 256 * c + 4096 * d) else none))))

/-- The number of nonzeros of a mask before a place, in row-major order. -/
def maskRank (m i : Nat) : Nat := (List.range i).countP (fun j => m / 2 ^ j % 2 == 1)

/-- Trit (row, col) of a T24S word with a legal pattern (R60). -/
def t24Trit (w : Nat) (row col : Nat) : Int :=
  let m := t24Masks[w % 128]?.getD 0
  let i := 4 * row + col
  if m / 2 ^ i % 2 = 0 then 0 else if w / 2 ^ (7 + maskRank m i) % 2 = 1 then -1 else 1

/-! ## The accumulator (R64) -/

/-- acc_add: the exact integer v × 2^e added to an element. -/
def accAdd (alpha : Int) (el : Elem) (v e : Int) : Elem :=
  if el.overflow then el
  else
    let (c, lost) :=
      if alpha ≤ e then (v * 2 ^ (e - alpha).toNat, false)
      else (v / 2 ^ (alpha - e).toNat, decide (v % 2 ^ (alpha - e).toNat ≠ 0))
    let s := el.x.toInt + c
    let el1 := { el with inexact := el.inexact || lost }
    if s > 2 ^ 95 - 1 then { el1 with x := BitVec.ofInt 96 (2 ^ 95 - 1), overflow := true }
    else if s < -(2 ^ 95) then { el1 with x := BitVec.ofInt 96 (-(2 ^ 95)), overflow := true }
    else { el1 with x := BitVec.ofInt 96 s }

/-- A tile's anchor. -/
def Tile.alpha (t : Tile) : Int := t.anchor.toInt

/-- An element of a tile. -/
def Tile.el (t : Tile) (m n : Nat) : Elem := Map.get t.elems (256 * m + n) Elem.zero

/-! ## Format words (R194) -/

/-- BF. -/
def fwBF (w : Word) : Nat := bits w.toNat 5 3
/-- AF. -/
def fwAF (w : Word) : Nat := bits w.toNat 2 0
/-- CHK. -/
def fwCHK (w : Word) : Bool := w.getLsbD 16
/-- CT. -/
def fwCT (w : Word) : Bool := w.getLsbD 15
/-- ALPHA as the anchor field. -/
def fwAlpha (w : Word) : BitVec 9 := w.extractLsb' 6 9

/-- The word is illegal (R194). -/
def fwIllegal (w : Word) (mmag : Bool) : Bool :=
  decide (w.toNat / 2 ^ 17 ≠ 0) || decide (5 < fwBF w) || decide (3 < fwAF w) ||
  (fwCHK w && (fwAF w != 0 || decide (3 ≤ fwBF w) || mmag))

/-- The SX format of AF or of BF − 2. -/
def sxOf (n : Nat) : SxFmt := if n = 1 then .sx2 else if n = 2 then .sx4 else .sx7

/-- Planes of a stationary format (R63, R278). -/
def planesOf (bf : Nat) : Nat := if bf ≤ 1 then 1 else if bf = 2 then 6 else if bf = 3 then 3 else if bf = 4 then 4 else 6

/-- Logical rows of a stationary tile (R202). -/
def logicalRows (bf : Nat) : Nat := if bf = 1 then 512 else 256

/-- The effective integer of an element of a block; of a NaN block, whose other fields are not read, a free value (R55). -/
def sxInteger (w blk i : Nat) : Int := if sxE blk = 255 then Config.nanInteger blk i else sxEff w blk i

/-! ## Streamed rows -/

/-- A streamed row: elements from k0 on, the exponent of each band, and whether a NaN block is among them (R65, R67). -/
structure Stream where
  ints : List Int
  exps : List Int
  nan : Bool
  deriving DecidableEq, Repr

/-- A row of INT8 bytes. -/
def streamInt8 (bs : List Byte) : Stream := ⟨bs.map BitVec.toInt, List.replicate (bs.length / 16) 0, false⟩

/-- Two bands of a register row: 32 bytes, and the header of R204. -/
def streamSxReg (w : Nat) (bs : List Byte) (hdr : Word) : Stream :=
  let e (b : Nat) : Nat := hdr.toNat / 2 ^ (16 * b) % 256
  let u (b q : Nat) : Nat := hdr.toNat / 2 ^ (16 * b + 8 + q) % 2
  ⟨bs.zipIdx.map (fun (x, i) =>
      let m : Int := (x.toNat % 2 ^ w * 2 ^ u (i / 16) (i % 16 / 4) : Nat)
      if e (i / 16) = 255 then Config.nanInteger (hdr.toNat * 2 ^ 256 + leNat bs) i else if 128 ≤ x.toNat then -m else m),
   [0, 1].map (fun b => (e b : Int) - 127 - w), e 0 == 255 || e 1 == 255⟩

/-- Whole SX blocks as in memory, one for each band (R205). -/
def streamSxMem (f : SxFmt) (nb : Nat) (bs : List Byte) : Stream :=
  let blk (b : Nat) : Nat := leNat ((bs.drop (b * sxBytes f)).take (sxBytes f))
  ⟨(List.range (16 * nb)).map (fun i => sxInteger (sxW f) (blk (i / 16)) (i % 16)),
   (List.range nb).map (fun b => (sxE (blk b) : Int) - 127 - sxW f),
   (List.range nb).any (fun b => sxE (blk b) == 255)⟩

/-- Bytes of a streamed row of `n` elements. -/
def rowBytes (af n : Nat) : Nat := if af = 0 then n else n / 16 * sxBytes (sxOf af)

/-- A streamed row of `n` elements in scratchpad form. -/
def streamMem (af n : Nat) (bs : List Byte) : Stream :=
  if af = 0 then streamInt8 bs else streamSxMem (sxOf af) (n / 16) bs

/-- A row of zeros. -/
def Stream.zero (n : Nat) : Stream := ⟨List.replicate n 0, List.replicate (n / 16) 0, false⟩

/-! ## Uncorrectable elements (R303) -/

/-- A use of elements: an uncorrectable one takes its poison flag; a bad anchor word poisons the whole tile. -/
def Tile.use (t : Tile) (p : Nat → Bool) : Tile :=
  let hit := if t.badAnchor then List.range 8192 else t.bad.filter p
  if hit.isEmpty then t
  else
    { t with
      elems := hit.foldl (fun es i => Map.insert es i { Map.get es i Elem.zero with poison := true }) t.elems
      bad := t.bad.filter (fun i => !hit.contains i)
      badAnchor := false }

/-! ## Products -/

/-- Digit j of the balanced-ternary form (R63). -/
def btDigit (b : Int) : Nat → Int
  | 0 => if b % 3 = 2 then -1 else b % 3
  | j + 1 => btDigit ((b - (if b % 3 = 2 then -1 else b % 3)) / 3) j

/-- A stationary element. -/
def Plane.w (p : Plane) (k n : Nat) : Int := Map.get p.elems (256 * k + n) 0

/-- The exact partial of a band: streamed band b against f of the stationary elements from k0 on. -/
def bandSum (ints : List Int) (k0 b : Nat) (f : Nat → Int) : Int :=
  (List.range 16).foldl (fun s i => s + ints[16 * b + i]?.getD 0 * f (k0 + 16 * b + i)) 0

/-- The exponent of the stationary block that covers column n in the band of logical row k (R66). -/
def Plane.eB (p : Plane) (k n : Nat) : Int :=
  if p.fmt.toNat = 2 then 0
  else ((Map.get p.exps (256 * (k / 16) + n) 0 : Nat) : Int) - 127 - sxW (sxOf (p.fmt.toNat - 2))

/-- The product register of R66. -/
def planeY (alpha : Int) (p : Plane) (st : Stream) (k0 n : Nat) : Elem :=
  ((List.range (planesOf p.fmt.toNat)).reverse).foldl (fun y j =>
    let y3 := accAdd alpha y (2 * y.x.toInt) alpha
    st.exps.zipIdx.foldl (fun y (eA, b) =>
      accAdd alpha y (bandSum st.ints k0 b (fun k => btDigit (p.w k n) j)) (eA + p.eB (k0 + 16 * b) n)) y3) Elem.zero

/-- One element's product with a streamed row (R65, R66), poison apart. -/
def elemAdd (alpha : Int) (p : Plane) (st : Stream) (k0 n : Nat) (el : Elem) : Elem :=
  if p.fmt.toNat ≤ 1 then
    st.exps.zipIdx.foldl (fun el (eA, b) => accAdd alpha el (bandSum st.ints k0 b (fun k => p.w k n)) eA) el
  else
    let y := planeY alpha p st k0 n
    let el1 := if el.overflow then el else { accAdd alpha el y.x.toInt alpha with inexact := el.inexact }
    { el1 with inexact := el1.inexact || y.inexact, overflow := el1.overflow || y.overflow }

/-- A streamed row that can change nothing: zeros, no poison of the row, none of a column. -/
def Stream.idle (st : Stream) (p : Plane) (dead : Bool) : Bool :=
  !dead && !st.nan && p.poisoned.isEmpty && st.ints.all (fun x => x == 0)

/-- A streamed row added into row m of a tile (R65–R67, R196). -/
def Tile.addRow (t : Tile) (p : Plane) (k0 m : Nat) (st : Stream) (dead : Bool) : Tile :=
  if st.idle p dead then t
  else
    { t with elems := (List.range 256).foldl (fun es n =>
        let el := Map.get es (256 * m + n) Elem.zero
        let el1 := elemAdd t.alpha p st k0 n el
        Map.set es (256 * m + n) { el1 with poison := el1.poison || st.nan || dead || p.poisoned.contains n } Elem.zero) t.elems }

/-- The check vectors updated by the rows of one tile (R214); row m's stream at place m. -/
def Tile.check (t : Tile) (p : Plane) (k0 : Nat) (rows : List (Nat × Stream)) : Tile :=
  let nb := (rows.map (fun r => r.2.exps.length)).foldl max 0
  let colSum : List Int := (List.range (16 * nb)).map (fun i => (rows.map (fun r => r.2.ints[i]?.getD 0)).sum)
  let upd (es : List (Nat × Elem)) (i : Nat) (v : Nat → Int) : List (Nat × Elem) :=
    Map.set es i ((List.range nb).foldl (fun el b => accAdd t.alpha el (v b) 0) (Map.get es i Elem.zero)) Elem.zero
  if colSum.all (fun x => x == 0) && rows.all (fun r => r.2.ints.all (fun x => x == 0)) then t
  else
    { t with
      cc := (List.range 256).foldl (fun es n => upd es n (fun b => bandSum colSum k0 b (fun k => p.w k n))) t.cc
      rc := rows.foldl (fun es r => upd es r.1 (fun b => bandSum r.2.ints k0 b (fun k => Map.get p.rowsums k 0))) t.rc }

/-- The rows of one tile added, and its check vectors if it keeps them. -/
def Tile.product (t : Tile) (p : Plane) (k0 : Nat) (rows : List (Nat × Stream × Bool)) : Tile :=
  let t0 := t.use (fun i => rows.any (fun r => r.1 == i / 256))
  let t1 := rows.foldl (fun t (m, st, dead) => t.addRow p k0 m st dead) t0
  if t.chk then t1.check p k0 (rows.map (fun (m, st, _) => (m, st))) else t1

/-! ## Conversion (R69, R70) -/

/-- FMT of a drain: the bytes of an element (R287). -/
def drainBytes (fmt : Nat) : Nat := if fmt = 0 then 1 else if fmt = 1 ∨ fmt = 5 ∨ fmt = 6 then 2 else 4

/-- A value in a drain format, the OVFL bits apart. -/
def drainEncode (fmt : Nat) (x : Num) : Nat × Bool :=
  let F := if fmt = 4 then FpFmt.f32 else if fmt = 5 then FpFmt.bf16 else FpFmt.f16
  if 4 ≤ fmt then
    match x with
    | .nan => (F.nan, false)
    | .inf n => (F.withSign n F.inf, false)
    | .fin n m e => F.round .rne n m e
  else
    let w := 8 * drainBytes fmt
    let lo : Int := -(2 ^ (w - 1) : Nat)
    let hi : Int := (2 ^ (w - 1) : Nat) - 1
    let clamped := match x with
      | .fin n m e => decide (rndInt .rne n m e < lo) || decide (hi < rndInt .rne n m e)
      | .nan => false
      | .inf _ => false
    (wrapN w (toInt .rne lo hi x), clamped)

/-- An element converted with a column's scale: its value, and the OVFL bits it sets (R69, R70). -/
def convElem (fmt : Nat) (alpha : Int) (el : Elem) (scale : Word) : Nat × Word :=
  let neg := decide (el.x.toInt < 0)
  if el.poison then ((drainEncode fmt .nan).1, 2)
  else if el.overflow then ((drainEncode fmt (.inf (neg != scale.getLsbD 31))).1, 1)
  else
    let (x, inv) := Num.mul (.fin neg el.x.toInt.natAbs alpha) (FpFmt.f32.num scale.toNat)
    let (v, ovf) := drainEncode fmt x
    (v, (if inv then 8 else 0) ||| (if ovf then 4 else 0))

/-- The scale a column's elements are converted with: 1.0 for plane formats (R69). -/
def Plane.scaleFor (p : Plane) (n : Nat) : Word :=
  if p.fmt.toNat ≤ 1 then Map.get p.scales n 0x3F800000 else 0x3F800000

/-! ## Stored images (R202, R203) -/

/-- Stored rows of an image and the bytes read of each. -/
def imageShape (bf : Nat) (west : Bool) (nk nn : Nat) : Nat × Nat :=
  let rs := if west then nn else nk
  let cs := if west then nk else nn
  if bf = 0 then (rs, (cs + 4) / 5)
  else if bf = 1 then (rs / 4, cs / 4 * 2)
  else if bf = 2 then (rs, cs)
  else if west then (rs, cs / 16 * sxBytes (sxOf (bf - 2)))
  else (rs / 16, cs * sxBytes (sxOf (bf - 2)))

/-- Byte j of stored row r. -/
def imageByte (rows : List (List Byte)) (r j : Nat) : Nat := ((rows[r]?.getD [])[j]?.getD 0).toNat

/-- The SX block that covers logical rows 16b … 16b + 15 of column n. -/
def imageBlock (f : SxFmt) (west : Bool) (rows : List (List Byte)) (b n : Nat) : Nat :=
  let r := if west then n else b
  let j := if west then b else n
  leNat (((rows[r]?.getD []).drop (j * sxBytes f)).take (sxBytes f))

/-- The stored element for W[k][n]. -/
def imageElem (bf : Nat) (west : Bool) (rows : List (List Byte)) (k n : Nat) : Int :=
  let i := if west then n else k
  let j := if west then k else n
  if bf = 0 then tritOf (imageByte rows i (j / 5) / 3 ^ (j % 5) % 3)
  else if bf = 1 then
    let w := imageByte rows (i / 4) (j / 4 * 2) + 256 * imageByte rows (i / 4) (j / 4 * 2 + 1)
    if west then t24Trit w (n % 4) (k % 4) else t24Trit w (k % 4) (n % 4)
  else if bf = 2 then (BitVec.ofNat 8 (imageByte rows i j)).toInt
  else sxInteger (sxW (sxOf (bf - 2))) (imageBlock (sxOf (bf - 2)) west rows (k / 16) n) (k % 16)

/-- Bytes of an image with an illegal ternary code, uncorrectable bytes apart: stored row and byte, in address order (R59, R60, R303). -/
def imageBad (bf : Nat) (rows : List (List (Byte × Bool))) : List (Nat × Nat) :=
  (rows.zipIdx.map (fun (bs, r) =>
    bs.zipIdx.filterMap (fun ((x, bad), j) =>
      if bad then none
      else if bf = 0 then (if 243 ≤ x.toNat then some (r, j) else none)
      else if bf = 1 then (if j % 2 = 0 ∧ 90 ≤ x.toNat % 128 then some (r, j) else none)
      else none))).flatten

/-- The columns a stored byte covers (R303). -/
def imageCols (bf : Nat) (west : Bool) (r j : Nat) : List Nat :=
  if bf = 0 then (if west then [r] else (List.range 5).map (fun i => 5 * j + i))
  else if bf = 1 then (List.range 4).map (fun i => (if west then 4 * r else j / 2 * 4) + i)
  else if bf = 2 then (if west then [r] else [j])
  else if west then [r] else [j / sxBytes (sxOf (bf - 2))]

/-- Numbers with values, unlisted where the value is the default. -/
def listed {α : Type} [DecidableEq α] (n : Nat) (d : α) (f : Nat → α) : List (Nat × α) :=
  (List.range n).filterMap (fun i => if f i = d then none else some (i, f i))

/-- The plane an image makes: stored rows, the scale of each column, the columns poisoned by uncorrectable bytes. -/
def planeOf (bf : Nat) (west : Bool) (nk nn : Nat) (rows : List (List Byte)) (scales : List Word) (bad : List Nat) : Plane :=
  let f := sxOf (bf - 2)
  let elem (i : Nat) : Int := if i / 256 < nk ∧ i % 256 < nn then imageElem bf west rows (i / 256) (i % 256) else 0
  let elems := listed (256 * logicalRows bf) 0 elem
  let nanCols := if bf ≤ 2 then [] else
    (List.range nn).filter (fun n => (List.range (nk / 16)).any (fun b => sxE (imageBlock f west rows b n) == 255))
  { elems := elems
    exps := if bf ≤ 2 then [] else
      listed 4096 0 (fun i => if i / 256 < nk / 16 ∧ i % 256 < nn then sxE (imageBlock f west rows (i / 256) (i % 256)) else 0)
    scales := listed nn 0x3F800000 (fun n => scales[n]?.getD 0x3F800000)
    rowsums := listed (logicalRows bf) 0 (fun k => ((List.range nn).map (fun n => elem (256 * k + n))).sum)
    fmt := BitVec.ofNat 3 bf
    poisoned := ((nanCols ++ bad).filter (fun n => decide (n < 256))).dedup
    idle := [] }

/-! ## Occupancy (R278–R280) -/

/-- Every digit of a plane is zero over the used k range: the zero map of the bands (R276, R279). DESIGN CHOICE (log entry 90): the map is that
of the trits as they are, so that a window write to a plane (R255) changes it, of which the manual says nothing. -/
def Plane.skipped (p : Plane) (k0 nk j : Nat) : Bool :=
  p.elems.all (fun (i, v) => !(decide (k0 ≤ i / 256) && decide (i / 256 < k0 + nk)) ||
    (if p.fmt.toNat ≤ 1 then v == 0 else btDigit v j == 0))

/-- Occupancy of an instruction or group: its rows, the used k range, its check beats. -/
def occupancy (p : Plane) (ct : Bool) (k0 nk : Nat) (rows : List Stream) (checks : Nat) : Nat :=
  let lr := if ct then rows.length else rows.countP (fun r => r.nan || r.ints.any (fun x => x != 0))
  let lp := if ct then planesOf p.fmt.toNat
    else (List.range (planesOf p.fmt.toNat)).countP (fun j => !p.skipped k0 nk j)
  12 + lr * lp + checks

end Sys2Proof.Machine
end

