-- ==== Sys2Proof/Machine/Window.lean ====
section
/-! DEFINITION. The on-chip window: what lies at each address, and its reads and writes (R254, R255, R272). -/

namespace Sys2Proof.Machine

/-- What lies at a window address (R254). -/
inductive WinAt
  | reg (core p w e : Nat)
  | scratch (core off : Nat)
  | x (core tile el word : Nat)
  | trits (core : Nat) (active : Bool) (row word : Nat)
  | scale (core : Nat) (active : Bool) (n : Nat)
  | rowsum (core : Nat) (active : Bool) (k : Nat)
  | flags (core tile el : Nat)
  | anchor (core tile : Nat)
  | share (cluster off : Nat)
  deriving DecidableEq, Repr

/-- The place at an offset of a core's block. -/
def winInCore (c off : Nat) : Option WinAt :=
  if off < 0x80000 then some (.reg c (off / 0x20000) (off % 0x20000 / 128) (off % 128 / 4))
  else if off < 0xC0000 then some (.scratch c (off - 0x80000))
  else if off < 0x120000 then
    let r := off - 0xC0000
    some (.x c (r / 0x18000) (r % 0x18000 / 12) (r % 0x18000 % 12 / 4))
  else if off < 0x124200 then some (.trits c true ((off - 0x120000) / 64) ((off - 0x120000) % 64 / 4))
  else if 0x128000 ≤ off ∧ off < 0x12C200 then some (.trits c false ((off - 0x128000) / 64) ((off - 0x128000) % 64 / 4))
  else if 0x130000 ≤ off ∧ off < 0x130400 then some (.scale c true ((off - 0x130000) / 4))
  else if 0x130400 ≤ off ∧ off < 0x130800 then some (.scale c false ((off - 0x130400) / 4))
  else if 0x130800 ≤ off ∧ off < 0x131000 then some (.rowsum c true ((off - 0x130800) / 4))
  else if 0x131000 ≤ off ∧ off < 0x131800 then some (.rowsum c false ((off - 0x131000) / 4))
  else if 0x131800 ≤ off ∧ off < 0x139800 then some (.flags c ((off - 0x131800) / 0x2000) ((off - 0x131800) % 0x2000))
  else if 0x139800 ≤ off ∧ off < 0x139810 then some (.anchor c ((off - 0x139800) / 4))
  else none

/-- The place at a window address. -/
def winAt (a : Addr) : Option WinAt :=
  let r := a.toNat - 0xF000000000000
  if a.toNat < 0xF000000000000 then none
  else if r < 192 * 0x1000000 then winInCore (r / 0x1000000) (r % 0x1000000)
  else if 0x100000000000 ≤ r ∧ r < 0x100000000000 + 32 * 0x400000 then
    let q := r - 0x100000000000
    if q % 0x400000 < 0x300000 then some (.share (q / 0x400000) (q % 0x400000)) else none
  else none

/-- The cluster of a place. -/
def WinAt.cluster : WinAt → Nat
  | .reg c _ _ _ | .scratch c _ | .x c _ _ _ | .trits c _ _ _ | .scale c _ _ | .rowsum c _ _ | .flags c _ _ | .anchor c _ => clusterOf c
  | .share k _ => k

/-- The sizes a place may be accessed in. -/
def WinAt.sizeOk : WinAt → Nat → Bool
  | .reg _ _ _ _, n => decide (4 ≤ n)
  | .scratch _ _, _ => true
  | .share _ _, _ => true
  | .x _ _ _ _, n | .trits _ _ _ _, n | .scale _ _ _, n | .rowsum _ _ _, n | .flags _ _ _, n | .anchor _ _, n => n == 4

/-- The wave that holds a wave-register of a core's partition, and the register it is to it. -/
def State.winReg (s : State) (core p w : Nat) : Option (Nat × Nat × Nat) :=
  s.groups.findSome? (fun (ctx, g) =>
    if g.core ≠ core then none
    else (g.waves.take g.waveSlots).zipIdx.findSome? (fun (x, i) =>
      if i % 4 = p ∧ x.origin ≤ w ∧ w < x.origin + x.regCount then some (ctx, i, w - x.origin) else none))

/-- The group or gang a scratchpad place belongs to, as a target. -/
def State.winScratch (s : State) : WinAt → Option Target
  | .scratch c off =>
    s.groups.findSome? (fun (ctx, g) =>
      if g.core = c ∧ g.scratchBase ≤ off ∧ off < g.scratchBase + g.image.scratch then some (.scratch ctx (off - g.scratchBase)) else none)
  | .share k off =>
    s.gangs.findSome? (fun (i, g) =>
      if g.cluster = some k ∧ g.shareBase ≤ off ∧ off < g.shareBase + g.share then some (.share i (off - g.shareBase)) else none)
  | .reg _ _ _ _ | .x _ _ _ _ | .trits _ _ _ _ | .scale _ _ _ | .rowsum _ _ _ | .flags _ _ _ | .anchor _ _ => none

/-! ## Physical rows of a plane (R254, R271, R272, R277) -/

/-- The rows in service, ascending: the ring (R271). -/
def Core.ring (c : Core) : List Nat := ((List.range 264).filter (fun r => !c.retiredRows.contains r)).take 256

/-- The ring place of a physical row. -/
def Core.ringPlace (c : Core) (row : Nat) : Option Nat := c.ring.findIdx? (fun r => r == row)

/-- Row q and index of the nonzero a T24S cell holds: the pair's first or second in logical rows 4q … 4q + 3. -/
def Plane.cellTrit (p : Plane) (pos n : Nat) : Int :=
  let nz := ((List.range 4).map (fun i => p.w (4 * (pos / 2) + i) n)).filter (fun v => v != 0)
  nz[pos % 2]?.getD 0

/-- The plane's trit at a physical row and column. -/
def Core.physTrit (c : Core) (p : Plane) (row col : Nat) : Int :=
  let n := (col + 256 - c.orgC.toNat) % 256
  if 2 ≤ p.fmt.toNat then 0
  else
    match c.ringPlace row with
    | none => Map.get p.idle (256 * row + col) 0
    | some pos =>
      let k := (pos + 256 - c.orgR.toNat) % 256
      if p.fmt.toNat = 0 then p.w k n else p.cellTrit k n

/-- A trit written at a physical row and column: dropped unless the plane is in T5. -/
def Core.setTrit (c : Core) (p : Plane) (row col : Nat) (v : Int) : Plane :=
  if p.fmt.toNat ≠ 0 then p
  else
    match c.ringPlace row with
    | none => { p with idle := Map.set p.idle (256 * row + col) v 0 }
    | some pos =>
      { p with elems := Map.set p.elems (256 * ((pos + 256 - c.orgR.toNat) % 256) + (col + 256 - c.orgC.toNat) % 256) v 0 }

/-- The active or the shadow plane. -/
def Core.plane (c : Core) (active : Bool) : Plane := if active then c.active else c.shadow

/-- The active or the shadow plane replaced. -/
def Core.setPlane (c : Core) (active : Bool) (p : Plane) : Core := if active then { c with active := p } else { c with shadow := p }

/-! ## Words -/

/-- Flags of an element as a byte. -/
def Elem.flagByte (e : Elem) : Nat := (if e.inexact then 1 else 0) + (if e.overflow then 2 else 0) + (if e.poison then 4 else 0)

/-- One word of a tile or plane, after the use of what it reads. -/
def Core.winWord (c : Core) : WinAt → Word
  | .x _ t i w => ((vget c.tiles t Tile.zero).el (i / 256) (i % 256)).x.extractLsb' (32 * w) 32
  | .trits _ act row w =>
    BitVec.ofNat 32 ((List.range 16).foldl (fun x i => x + tritBits (c.physTrit (c.plane act) row (16 * w + i)) * 4 ^ i) 0)
  | .scale _ act n => Map.get (c.plane act).scales n 0x3F800000
  | .rowsum _ act k => BitVec.ofInt 32 (Map.get (c.plane act).rowsums k 0)
  | .flags _ t i =>
    BitVec.ofNat 32 ((List.range 4).foldl (fun x j =>
      x + ((vget c.tiles t Tile.zero).el ((i + j) / 256) ((i + j) % 256)).flagByte * 256 ^ j) 0)
  | .anchor _ t =>
    let tile := vget c.tiles t Tile.zero
    tile.anchor.setWidth 32 ||| (if tile.chk then 0x10000 else 0)
  | .reg _ _ _ _ => 0
  | .scratch _ _ => 0
  | .share _ _ => 0

/-- What a window read uses of a tile (R303). -/
def Core.winUse (c : Core) : WinAt → Core
  | .x _ t i _ => { c with tiles := vmod c.tiles t (fun x => x.use (fun j => j == i)) }
  | .flags _ t i => { c with tiles := vmod c.tiles t (fun x => x.use (fun j => decide (i ≤ j) && decide (j < i + 4))) }
  | .anchor _ _ | .trits _ _ _ _ | .scale _ _ _ | .rowsum _ _ _ | .reg _ _ _ _ | .scratch _ _ | .share _ _ => c

/-- An element changed. -/
def Tile.setEl (t : Tile) (i : Nat) (f : Elem → Elem) : Tile :=
  { t with elems := Map.set t.elems i (f (Map.get t.elems i Elem.zero)) Elem.zero }

/-- One word of a tile or plane written. -/
def Core.winPut (c : Core) (a : WinAt) (v : Word) : Core :=
  match a with
  | .x _ t i w =>
    { c with tiles := vmod c.tiles t (fun x => x.setEl i (fun e =>
        { e with x := (e.x &&& ~~~((0xFFFFFFFF : BitVec 96) <<< (32 * w))) ||| (v.setWidth 96 <<< (32 * w)) })) }
  | .trits _ act row w =>
    c.setPlane act ((List.range 16).foldl (fun p i => c.setTrit p row (16 * w + i) (codeTrit (tritCode v i))) (c.plane act))
  | .scale _ act n => c.setPlane act { c.plane act with scales := Map.set (c.plane act).scales n v 0x3F800000 }
  | .rowsum _ act k => c.setPlane act { c.plane act with rowsums := Map.set (c.plane act).rowsums k v.toInt 0 }
  | .flags _ t i =>
    { c with tiles := vmod c.tiles t (fun x => (List.range 4).foldl (fun x j =>
        x.setEl (i + j) (fun e =>
          { e with inexact := v.getLsbD (8 * j), overflow := v.getLsbD (8 * j + 1), poison := v.getLsbD (8 * j + 2) })) x) }
  | .anchor _ t => { c with tiles := vmod c.tiles t (fun x => { x with anchor := v.setWidth 9, chk := v.getLsbD 16, badAnchor := false }) }
  | .reg _ _ _ _ => c
  | .scratch _ _ => c
  | .share _ _ => c

/-- A word a place takes: no reserved bit of a flag byte or an anchor word (R255). -/
def WinAt.takes : WinAt → Word → Bool
  | .flags _ _ _, v => v &&& 0xF8F8F8F8 == 0
  | .anchor _ _, v => v &&& 0xFFFEFE00 == 0
  | .reg _ _ _ _, _ | .scratch _ _, _ | .x _ _ _ _, _ | .trits _ _ _ _, _ | .scale _ _ _, _ | .rowsum _ _ _, _ | .share _ _, _ => true

/-! ## Accesses -/

/-- The core of a place that lies in a core's block. -/
def WinAt.core : WinAt → Nat
  | .reg c _ _ _ | .scratch c _ | .x c _ _ _ | .trits c _ _ _ | .scale c _ _ | .rowsum c _ _ | .flags c _ _ | .anchor c _ => c
  | .share _ _ => Config.cores

/-- Bytes of a scratchpad that nobody holds. -/
def freeBytes (m : List (Nat × Byte)) (off n : Nat) : List Byte := (List.range n).map (fun i => Map.get m (off + i) 0)

/-- A window read of `n` bytes: the bytes, and whether any is uncorrectable. -/
def State.winRead (s : State) (part : Nat) (a : WinAt) (n : Nat) : State × List Byte × Bool :=
  match a with
  | .reg c p w e =>
    match s.winReg c p w with
    | none =>
      (s, bytesOf n ((List.range (n / 4)).foldr (fun j acc => acc * 2 ^ 32 +
        (Map.get (s.core c).freeRegs (32768 * p + 32 * w + e + j) 0).toNat) 0), false)
    | some (ctx, wv, r) =>
      match (Map.find s.groups ctx).bind (fun g => g.waves[wv]?) with
      | none => (s, List.replicate n 0, false)
      | some x =>
        (s, bytesOf n ((List.range (n / 4)).foldr (fun j acc => acc * 2 ^ 32 + (vget (x.reg r).elems (e + j) 0).toNat) 0),
         (List.range (n / 4)).any (fun j => x.badElems.contains (r, e + j)))
  | .scratch c off =>
    match s.winScratch a with
    | none => (s, freeBytes (s.core c).freeScratch off n, false)
    | some t => s.readAt part t n
  | .share k off =>
    match s.winScratch a with
    | none => (s, freeBytes (s.cluster k).freeScratch off n, false)
    | some t => s.readAt part t n
  | .x _ _ _ _ | .trits _ _ _ _ | .scale _ _ _ | .rowsum _ _ _ | .flags _ _ _ | .anchor _ _ =>
    let s1 := s.modCore a.core (fun c => c.winUse a)
    (s1, bytesOf 4 ((s1.core a.core).winWord a).toNat, false)

/-- A core's state in the present device, as a snapshot holds it. -/
def State.withSnapshot (s : State) (x : Snapshot) : State :=
  { s.modCore x.coreNo (fun c => { x.core with clock := c.clock }) with
    groups := x.groups.foldl (fun m g => Map.insert m g.1 g.2) (s.groups.filter (fun g => g.2.core != x.coreNo)) }

/-- A window read by a word of a core: another core's storage is seen as it was 40 core clocks ago (R307). -/
def State.winSeen (s : State) (reader part : Nat) (a : WinAt) (n : Nat) : State × List Byte × Bool :=
  match (s.history.filter (fun x => x.coreNo == a.core)).getLast? with
  | none => s.winRead part a n
  | some x => if a.core = reader then s.winRead part a n else ((s.winRead part a n).1, ((s.withSnapshot x).winRead part a n).2)

/-- A register's physical elements written: its borrowers are materialised first, its tag goes (R255). -/
def Wave.winWrite (w : Wave) (r e : Nat) (vs : List Word) : Wave :=
  let w1 := w.freeBorrowers r
  let elems := vs.zipIdx.foldl (fun row (v, j) => row.setIfInBounds (e + j) v) (w1.reg r).elems
  { w1.setReg r { w1.reg r with elems := elems, tag := .none } with
    badElems := w1.badElems.filter (fun b => !(b.1 == r && decide (e ≤ b.2) && decide (b.2 < e + vs.length))) }

/-- A window write of bytes. -/
def State.winWrite (s : State) (part : Nat) (a : WinAt) (bs : List Byte) : State :=
  match a with
  | .reg c p w e =>
    match s.winReg c p w with
    | none => s.modCore c (fun k => { k with
        freeRegs := (List.range (bs.length / 4)).foldl (fun m j =>
          Map.set m (32768 * p + 32 * w + e + j) (BitVec.ofNat 32 (leNat ((bs.drop (4 * j)).take 4))) 0) k.freeRegs })
    | some (ctx, wv, r) =>
      s.modWave ctx wv (fun x => x.winWrite r e ((List.range (bs.length / 4)).map (fun j =>
        BitVec.ofNat 32 (leNat ((bs.drop (4 * j)).take 4)))))
  | .scratch c off =>
    match s.winScratch a with
    | none => s.modCore c (fun k => { k with freeScratch := bs.zipIdx.foldl (fun m x => Map.set m (off + x.2) x.1 0) k.freeScratch })
    | some t => s.putAll part [⟨t, bs.map some⟩]
  | .share k off =>
    match s.winScratch a with
    | none => s.modCluster k (fun q => { q with freeScratch := bs.zipIdx.foldl (fun m x => Map.set m (off + x.2) x.1 0) q.freeScratch })
    | some t => s.putAll part [⟨t, bs.map some⟩]
  | .x _ _ _ _ | .trits _ _ _ _ | .scale _ _ _ | .rowsum _ _ _ | .flags _ _ _ | .anchor _ _ =>
    s.modCore a.core (fun c => c.winPut a (BitVec.ofNat 32 (leNat bs)))

/-- The registers an instruction in matrix order writes: ARD 8 columns, or 4 words of one; ACHK 9 (R211, R214). -/
def MatOp.dests : MatOp → List Nat
  | .ard _ _ raw _ vd => (List.range (if raw then 4 else 8)).map (fun i => vd.toNat + i)
  | .achk _ _ vd => (List.range 9).map (fun i => vd.toNat + i)
  | .tld _ _ _ _ _ _ _ | .swap | .mma _ _ _ _ _ | .mmas _ _ _ _ _ _ _ | .mmag _ _ _ _ _ _ _ _ _ _ | .aclr _ _ | .adrain _ _ _ _ _
  | .aflip _ _ _ _ => []

/-- The destination of a fused arrival that waits for its phase (R180). -/
def PathSlot.fusedDest (p : PathSlot) : List Nat :=
  match p.wait with
  | some (.barrier _ _ _ (some (vd, _))) => if p.live then [vd.toNat] else []
  | _ => []

/-- Registers of a wave that words which wait have still to write: a fused arrival, GENBUMP, STEST, ARD, ACHK (R241). -/
def State.waitDests (s : State) (core ctx wv : Nat) : List Nat :=
  let waiter (x : Option (SlotRef × Reg × Mask)) : List Nat :=
    (x.toList.filter (fun y => y.1.ctx == ctx && y.1.wave == wv)).map (fun y => y.2.1.toNat)
  (((Map.find s.groups ctx).bind (fun g => g.waves[wv]?)).toList.flatMap (fun w =>
    (w.slots.toList ++ (w.block.toList.flatMap (fun b => b.slots.toList))).flatMap PathSlot.fusedDest)) ++
  s.bumps.flatMap (fun b => waiter b.waiter) ++ s.tests.flatMap (fun t => waiter t.waiter) ++
  ((s.core core).queue.filter (fun e => e.ctx == ctx && e.wave == wv)).flatMap (fun e => e.op.dests)

/-- A wave has a pending write of a register: a memory word that is not complete, or a word that waits, writes it (R241, R249). -/
def State.pendingAt (s : State) (c ctx wv r : Nat) : Bool :=
  ((s.core c).log ++ (s.core c).reqs).any (fun e => e.2.ctx == ctx && e.2.wave == wv && e.2.spec.dests.contains r) ||
  (s.waitDests c ctx wv).contains r

/-- A place that a window access may not use yet: a register with a pending write of its wave, a tile or plane inside an instruction of
the core's matrix order (R255). -/
def State.winBusy (s : State) (a : WinAt) : Bool :=
  match a with
  | .reg c p w _ =>
    match s.winReg c p w with
    | none => false
    | some (ctx, wv, r) => s.pendingAt c ctx wv r
  | .scratch _ _ | .share _ _ => false
  | .x c _ _ _ | .trits c _ _ _ | .scale c _ _ | .rowsum c _ _ | .flags c _ _ | .anchor c _ =>
    (s.core c).queue.any (fun e => e.phase == .begun || e.phase == .occupied)

/-- The place an access of `n` bytes may use, for a partition (R255). -/
def State.winOk (s : State) (part : Nat) (a : Addr) (n : Nat) : Option WinAt :=
  match winAt a with
  | none => none
  | some x => if x.sizeOk n && (s.part part).hasCluster x.cluster then some x else none

end Sys2Proof.Machine
end

