-- ==== Sys2Proof/Machine/Memory.lean ====
section
/-! DEFINITION. Memory words: issue, translation, parking, performance, delivery, replay, give-up (R156–R176, R256–R258,
R291, R302, R303, R435). -/

namespace Sys2Proof.Machine

/-- A state as an outcome: a device address that does not exist stops the machine. -/
def State.outcome (s : State) : Host.Outcome State Fault Refusal :=
  match s.beyond with
  | none => .next s
  | some (p, a) => .fault (.noSuchAddress p a)

/-- A word of the issuing slot whose effect is a state. -/
def State.act (s : State) (f : Here → State) : Host.Outcome State Fault Refusal :=
  match s.here with
  | none => .fault .noIssuingSlot
  | some h => (f h).outcome

/-! ## What a word touches -/

/-- A kind of word that reads memory into registers and changes none. -/
def MemKind.loads : MemKind → Bool
  | .load | .ldu | .ld2s => true
  | .store | .stu | .mscmd | .atom | .red | .cas => false

/-- A kind of word applied page by page (R174). -/
def MemKind.atomic : MemKind → Bool
  | .atom | .red | .cas => true
  | .load | .store | .ldu | .stu | .ld2s | .mscmd => false

/-- What the word asks of a leaf (R353). -/
def MemSpec.need (m : MemSpec) : Need :=
  match m.kind with
  | .load => if m.scope == .memside then .memsideLoad else .read
  | .ldu | .ld2s => .read
  | .store | .stu => .write
  | .mscmd => .memside
  | .atom | .red | .cas => .atomic

/-- The threads still served: covered and not applied yet; a thread that has exited since keeps its access (R151). -/
def MemWord.served (m : MemWord) : Mask := m.cov &&& ~~~m.applied

/-- The word without the lanes that death drops: those of a word in the operand log that are neither applied nor sent, and loads in flight;
stores and atomics already issued complete (R305). DESIGN CHOICE (log entry 83): R305 does not name an LD2S in flight; its lanes to a dead
thread are dropped as those of a load, and their bytes do not count against its barrier. -/
def MemWord.withoutDead (m : MemWord) (dead sent : Mask) (logged : Bool) : MemWord :=
  if logged || m.spec.kind.loads then { m with cov := m.cov &&& ~~~(dead &&& ~~~m.applied &&& ~~~sent) } else m

/-- The byte offsets a thread accesses (R164). -/
def MemWord.offsets (m : MemWord) (t : Lane) : List Nat :=
  match m.spec.kind with
  | .ldu | .stu => (List.range 16).filter (fun i => m.aux[t].getLsbD i)
  | .load | .store | .ld2s | .mscmd | .atom | .red | .cas => List.range m.spec.size

/-- The first and the last byte a thread accesses. -/
def MemWord.edges (m : MemWord) (t : Lane) : List Nat :=
  match m.offsets t with
  | [] => []
  | a :: rest => match rest.getLast? with
    | none => [a]
    | some b => [a, b]

/-- The 57-bit address of a thread's byte. The bytes of an LDU or STU window past the last canonical address are taken modulo 2^57:
R164 and R435 speak of the address A alone (log entry 62). -/
def MemWord.va (m : MemWord) (t : Lane) (off : Nat) : Nat := (m.addrs[t].toNat + off) % 2 ^ 57

/-- The 64 KiB pages the threads of a mask touch, ascending. -/
def MemWord.pages (m : MemWord) (mask : Mask) : List Nat :=
  (Mask.lanes mask).foldl (fun ps t => (m.edges t).foldl (fun ps o => insertNat (m.va t o / 65536) ps) ps) []

/-- The translations of pages, by page number. -/
abbrev Leaves := List (Nat × Except WalkFail Leaf)

/-- Pages translated in order. -/
def State.translatePages (s : State) (core part : Nat) (asid : BitVec 16) : List Nat → State × Leaves
  | [] => (s, [])
  | p :: ps =>
    let (s1, r) := s.translate core part asid (p * 65536)
    let (s2, rs) := s1.translatePages core part asid ps
    (s2, (p, r) :: rs)

/-- The leaf of an address among translations. -/
def Leaves.at_ (ls : Leaves) (va : Nat) : Option Leaf :=
  match Map.find ls (va / 65536) with
  | some (.ok l) => some l
  | _ => none

/-- The threads of a mask with an edge byte for which `p` holds, and the address of the first such byte of the lowest: for a window of
LDU or STU that reaches the page with its last byte only, that byte's (log entry 62). -/
def MemWord.offenders (m : MemWord) (mask : Mask) (p : Nat → Bool) : Mask × Addr :=
  let bad := Mask.ofPred (fun t => Mask.has mask t && (m.edges t).any (fun o => p (m.va t o)))
  let t := Mask.lowest bad
  (bad, m.addrs[t] + BitVec.ofNat 64 (((m.edges t).find? (fun o => p (m.va t o))).getD 0))

/-- Where a thread's byte goes. -/
def State.goes (s : State) (part : Nat) (ls : Leaves) (m : MemWord) (t : Lane) (off : Nat) : Option Target :=
  (ls.at_ (m.va t off)).bind (fun l => s.granted part l m.spec.need m.tag.toNat (m.va t off))

/-- The runs of a thread's access: offsets and lengths that no 64-byte line boundary cuts (R256). -/
def MemWord.runs (m : MemWord) (t : Lane) : List (Nat × Nat) :=
  let first := 64 - m.va t 0 % 64
  if m.spec.size ≤ first then [(0, m.spec.size)] else [(0, first), (first, m.spec.size - first)]

/-- A thread accesses a byte of a run. -/
def MemWord.uses (m : MemWord) (t : Lane) (run : Nat × Nat) : Bool :=
  (m.offsets t).any (fun o => decide (run.1 ≤ o) && decide (o < run.1 + run.2))

/-! ## Values -/

/-- The data operand of a thread, lowest register in the low bits. -/
def MemWord.datum (m : MemWord) (t : Lane) : Nat := m.data.foldr (fun row acc => acc * 2 ^ 32 + row[t].toNat) 0

/-- The bytes of a run that a thread stores. -/
def MemWord.stored (m : MemWord) (t : Lane) (run : Nat × Nat) : List (Option Byte) :=
  (List.range run.2).map (fun i =>
    if (m.offsets t).contains (run.1 + i) then some (BitVec.ofNat 8 (m.datum t / 256 ^ (run.1 + i))) else none)

/-- Bytes of a run that a thread loads, at their place in its value. -/
def MemWord.loaded (m : MemWord) (t : Lane) (run : Nat × Nat) (bs : List Byte) : BitVec 128 :=
  BitVec.ofNat 128 (bs.zipIdx.foldl (fun x (b, i) =>
    if (m.offsets t).contains (run.1 + i) then x + b.toNat * 256 ^ (run.1 + i) else x) 0)

/-- The registers' words of a thread's value: b and h extended by SX (R162). -/
def MemSpec.words (m : MemSpec) (v : BitVec 128) : List Word :=
  if m.sx && decide (m.size < 4) then
    [BitVec.ofInt 32 (if 2 ^ (8 * m.size - 1) ≤ v.toNat % 2 ^ (8 * m.size) then (v.toNat % 2 ^ (8 * m.size) : Int) - (2 ^ (8 * m.size) : Nat)
      else (v.toNat % 2 ^ (8 * m.size) : Nat))]
  else (List.range m.dests.length).map (fun j => BitVec.ofNat 32 (v.toNat / 2 ^ (32 * j)))

/-! ## Delivery -/

/-- The operand log has a free entry (R242). -/
def Core.logFree (c : Core) : Bool := decide (c.log.length < Config.logEntries)

/-- The undelivered fault that a word has to deliver because its bad data would kill the wave's last live threads (R299). -/
def Wave.lastFault (w : Wave) (bad : Mask) : Option AsyncFault :=
  if bad &&& w.alive ≠ 0 ∧ w.alive &&& ~~~bad = 0 then w.firstFault (fun _ => true) else none

/-- A word with bad data that serves as the wait of an undelivered fault (R299): at issue the fault is delivered before the word takes
any effect; later the word keeps an entry in the log, from which RTT replays it, once the wave can take the trap. -/
def State.deliverAtLoad (s : State) (core id : Nat) (m : MemWord) (w : Wave) (f : AsyncFault) (at_ : Option (Fin 2)) : State :=
  let t : Trap := { Trap.of f.cause (w.exec (w.slotOf m.slot)) with addr := f.addr }
  match at_ with
  | some k => (s.trapIn m.ctx m.wave k t m.pc m.pc none).faultTaken m.ctx m.wave f
  | none =>
    let k := w.slotOf m.slot
    if w.takes id ∧ (s.core core).logFree then
      ((s.modCore core (fun c => { c with log := Map.insert c.log id { m with parked := true, performed := false } })).trapIn m.ctx m.wave k t m.pc w.slots[k].pc
        (some id)).faultTaken m.ctx m.wave f
    else s.modCore core (fun c => { c with reqs := Map.insert c.reqs id { m with performed := true } })

/-- A word's results reach its registers, tagged uniform where the rule says so and every thread has the same, and the threads whose
data were uncorrectable are killed (R16, R40, R244, R303, R304), unless that would end a wave with an undelivered fault (R299), or one whose
remote writes have no reply yet: the data then wait for these (R380). -/
def State.deliver (s : State) (core id : Nat) (m : MemWord) (at_ : Option (Fin 2)) : State :=
  match (Map.find s.groups m.ctx).bind (fun g => g.waves[m.wave]?) with
  | none => s
  | some w =>
    match w.lastFault m.badLanes with
    | some f => s.deliverAtLoad core id m w f at_
    | none =>
      if m.badLanes &&& w.alive ≠ 0 ∧ w.endsAll m.badLanes ∧ s.waveUnanswered m.ctx m.wave then
        s.modCore core (fun c => { c with reqs := Map.insert c.reqs id { m with performed := true } })
      else
      let good := m.cov &&& w.alive &&& ~~~m.badLanes
      let same := (Mask.lanes good).all (fun t => m.spec.words m.returns[t] == m.spec.words m.returns[Mask.lowest good])
      let op : AluOp := ⟨m.spec.dests, [], false, fun _ => if m.spec.uniform && same then .uniform else .none,
        fun t _ => ⟨m.spec.words m.returns[t], false, false⟩⟩
      let s1 := if m.spec.dests.isEmpty || good == 0 then s else s.modWave m.ctx m.wave (fun w => w.alu good op)
      s1.killThreads m.ctx m.wave (m.badLanes &&& w.alive) (fun _ => noElem) (fun t => m.addrs[t]) at_

/-- The slot goes on at its next word, unless the word has emptied it or has delivered a fault. -/
def State.stepOn (s : State) (h : Here) : State :=
  s.modWave h.ctx h.wv (fun w => if w.living (h.w.exec h.k) = 0 ∨ w.halt ≠ h.w.halt then w else w.advance h.k)

/-! ## Performing the lanes of a word -/

/-- A lane's outstanding remote operation. -/
def MemWord.remote (m : MemWord) (core id : Nat) (t : Lane) (off window addr : Nat) (op : FabricOp) : RemoteOp :=
  { ctx := m.ctx, core := core, wave := m.wave, slot := m.slot, thread := t.val, pc := m.pc, word := id, off := off,
    cover := none, coll := none, serial := none, window := window, addr := BitVec.ofNat 40 addr,
    va := m.addrs[t], op := op, epoch := 0, firstSent := 0, lastSent := 0, sends := 0, interval := 50000, status := .queued,
    telem := m.telems[t], gen := none }

/-- What a word asks at an atomic or posted target. -/
def MemWord.fabricOp (m : MemWord) (t : Lane) (run : Nat × Nat) : FabricOp :=
  let wide := m.spec.size == 8
  match m.spec.kind with
  | .load | .ldu | .ld2s => .load run.2
  | .store | .stu | .mscmd =>
    .store run.2 (BitVec.ofNat 128 (m.datum t / 256 ^ run.1))
      (BitVec.ofNat 16 ((List.range run.2).foldl (fun x i => if (m.offsets t).contains (run.1 + i) then x + 2 ^ i else x) 0)) false
  | .atom => .atomic m.spec.aop wide (BitVec.ofNat 64 (m.datum t))
  | .red => .red m.spec.aop wide (BitVec.ofNat 64 (m.datum t))
  | .cas => .cas wide (BitVec.ofNat 64 (m.datum t % 256 ^ m.spec.size)) (BitVec.ofNat 64 (m.datum t / 256 ^ m.spec.size % 256 ^ m.spec.size))

/-- The value an atomic leaves (R168–R171, R176). -/
def MemWord.combine (m : MemWord) (t : Lane) (old : Nat) : Nat :=
  match m.spec.kind with
  | .cas => if old = m.datum t % 256 ^ m.spec.size then m.datum t / 256 ^ m.spec.size % 256 ^ m.spec.size else old
  | .mscmd => (old + m.datum t) % 2 ^ 32
  | .load | .store | .ldu | .stu | .ld2s | .atom | .red => atomOp m.spec.aop (8 * m.spec.size) old (m.datum t)

/-- A lane's value and mark recorded. -/
def MemWord.got (m : MemWord) (t : Lane) (v : BitVec 128) (bad : Bool) : MemWord :=
  { m with
    returns := m.returns.set t (m.returns[t] ||| v)
    badLanes := if bad then m.badLanes ||| BitVec.ofNat 32 (2 ^ t.val) else m.badLanes
    applied := m.applied ||| BitVec.ofNat 32 (2 ^ t.val) }

/-- One run of one lane of a load, read; a peer's part leaves as a remote operation, and the lane stays unapplied. -/
def State.loadRun (s : State) (core part id : Nat) (where_ : Lane → Nat → Option Target) (t : Lane) (run : Nat × Nat)
    (m : MemWord) : State × MemWord :=
  match where_ t run.1 with
  | none => (s, m)
  | some (.peer w a) => (s.startRemote (m.remote core id t run.1 w a (m.fabricOp t run)), m)
  | some tg =>
    let (s1, bs, bad) := s.readAt part tg run.2
    let m1 := { m with
      returns := m.returns.set t (m.returns[t] ||| m.loaded t run bs)
      badLanes := if bad then m.badLanes ||| BitVec.ofNat 32 (2 ^ t.val) else m.badLanes }
    (s1, m1)

/-- The bits of the lanes that wait for a peer's reply. -/
def State.awaited (s : State) (core id : Nat) : Mask :=
  s.remote.foldl (fun m p => if p.2.core == core && p.2.word == id && p.2.cover.isNone then m ||| BitVec.ofNat 32 (2 ^ p.2.thread) else m) 0

/-- The first byte of a run that a thread uses. -/
def MemWord.firstUsed (m : MemWord) (t : Lane) (run : Nat × Nat) : Nat :=
  ((m.offsets t).find? (fun o => decide (run.1 ≤ o) && decide (o < run.1 + run.2))).getD run.1

/-- A run narrowed to the bytes a thread uses of it. -/
def MemWord.narrow (m : MemWord) (t : Lane) (run : Nat × Nat) : Nat × Nat :=
  let first := m.firstUsed t run
  let last := (((m.offsets t).filter (fun o => decide (o < run.1 + run.2))).getLast?).getD first
  (first, last + 1 - first)

/-- The used runs of a thread. -/
def MemWord.usedRuns (m : MemWord) (t : Lane) : List (Nat × Nat) :=
  ((m.runs t).filter (fun r => m.uses t r)).map (fun r => m.narrow t r)

/-- Loads of the lanes of a mask. -/
def State.loadLanes (s : State) (core part id : Nat) (where_ : Lane → Nat → Option Target) (m : MemWord) (mask : Mask) :
    State × MemWord :=
  (Mask.lanes mask).foldl (fun (s, m) t => (m.usedRuns t).foldl (fun (s, m) run => s.loadRun core part id where_ t run m) (s, m)) (s, m)

/-- Stores of the lanes of a mask, ascending: the highest-numbered lane's byte stays (R159); peers' lanes are sent. -/
def State.storeLanes (s : State) (core part id : Nat) (where_ : Lane → Nat → Option Target) (m : MemWord) (mask : Mask) : State :=
  let parts := (Mask.lanes mask).flatMap (fun t => (m.usedRuns t).map (fun run => (t, run, where_ t run.1)))
  let puts := parts.filterMap (fun (t, run, tg) => match tg with
    | none => none
    | some (.peer _ _) => none
    | some x => some ⟨x, m.stored t run⟩)
  parts.foldl (fun s (t, run, tg) => match tg with
    | some (.peer w a) => s.startRemote (m.remote core id t run.1 w a (m.fabricOp t run))
    | _ => s) (s.putAll part puts)

/-- One lane of an atomic performed where it lies, as one step; the location of an uncorrectable word is unchanged (R303). -/
def State.atomLane (s : State) (core part id : Nat) (where_ : Lane → Nat → Option Target) (t : Lane) (m : MemWord) : State × MemWord :=
  match where_ t 0 with
  | none => (s, m)
  | some (.peer w a) => (s.startRemote (m.remote core id t 0 w a (m.fabricOp t (0, m.spec.size))), m)
  | some tg =>
    let (s1, old, bad) := s.exchange part tg m.spec.size (m.combine t)
    (s1, m.got t (BitVec.ofNat 128 old) bad)

/-- Lanes by rising rank; the order is another agent's choice (R168). -/
def rankLane (draw : Nat) (t : Lane) : List Lane → List Lane
  | [] => [t]
  | x :: xs => if Config.laneRank draw t.val < Config.laneRank draw x.val then t :: x :: xs else x :: rankLane draw t xs

/-- The order in which the lanes of an atomic are applied. -/
def laneOrder (draw : Nat) (ls : List Lane) : List Lane := ls.foldr (fun t acc => rankLane draw t acc) []

/-- The lane goes to peer memory. -/
def goesFar (where_ : Lane → Nat → Option Target) (t : Lane) : Bool :=
  match where_ t 0 with
  | some (.peer _ _) => true
  | some (.dev _ _) | some (.host _) | some (.mmio _) | some (.scratch _ _) | some (.share _ _) | none => false

/-- The lanes of a mask applied: those that go to a peer are sent in thread order, which is that of their serials (R381), the
others in an order not fixed. -/
def State.atomLanes (s : State) (core part id : Nat) (where_ : Lane → Nat → Option Target) (m : MemWord) (mask : Mask) :
    State × MemWord :=
  ((Mask.lanes mask).filter (goesFar where_) ++
    laneOrder s.fresh ((Mask.lanes mask).filter (fun t => !goesFar where_ t))).foldl (fun (s, m) t => s.atomLane core part id where_ t m) (s.draw, m)

/-- The lanes of an LD2S copied: the bytes land in the scratchpad and count against the barrier (R165, R183, R303). -/
def State.ld2sLand (s : State) (part : Nat) (m : MemWord) (mask : Mask) : State :=
  match Map.find s.groups m.ctx with
  | none => s
  | some g =>
    let s1 := (Mask.lanes mask).foldl (fun s t =>
      match s.scratchAt m.ctx g m.aux[t] m.spec.size with
      | none => s
      | some tg =>
        let s1 := s.putAll part [⟨tg, (bytesOf m.spec.size m.returns[t].toNat).map some⟩]
        if Mask.has m.badLanes t then s1.poisonAt tg m.spec.size else s1) s
    s1.deliverTx m.ctx m.bar (m.spec.size * Mask.count mask)

/-! ## A word between issue and completion -/

/-- A word leaves the log and the requests. -/
def Core.dropWord (c : Core) (id : Nat) : Core := { c with log := Map.erase c.log id, reqs := Map.erase c.reqs id }

/-- A word whose lanes have been performed: it waits for peers, or for its data, or it is complete. -/
def State.settleWord (s : State) (core part id : Nat) (m : MemWord) (at_ : Option (Fin 2)) : State :=
  let waits := s.awaited core id
  let m1 := { m with applied := m.applied ||| (m.cov &&& ~~~waits), tokens := [], parked := false }
  let s1 := s.modCore core (fun c => c.dropWord id)
  if waits ≠ 0 then s1.modCore core (fun c => { c with reqs := Map.insert c.reqs id m1 })
  else if s.deferred && (m.spec.kind.loads || !m.spec.dests.isEmpty) then
    s1.modCore core (fun c => { c with reqs := Map.insert c.reqs id { m1 with performed := true } })
  else if m.spec.kind = .ld2s then s1.ld2sLand part m1 m.cov
  else s1.deliver core id m1 at_

/-- All lanes of a word that is not an atomic performed, its pages resolved. -/
def State.performWord (s : State) (core part id : Nat) (where_ : Lane → Nat → Option Target) (m : MemWord)
    (at_ : Option (Fin 2)) : State :=
  let mask := m.served &&& ~~~(s.awaited core id)
  match m.spec.kind with
  | .load | .ldu | .ld2s =>
    let (s1, m1) := s.loadLanes core part id where_ m mask
    s1.settleWord core part id m1 at_
  | .store | .stu => (s.storeLanes core part id where_ m mask).settleWord core part id m at_
  | .mscmd | .atom | .red | .cas =>
    let (s1, m1) := s.atomLanes core part id where_ m mask
    s1.settleWord core part id m1 at_

/-- What an attempt at a word comes to. -/
inductive Attempt
  /-- every page it needs is resolved and granted -/
  | ready (ls : Leaves)
  /-- it parks, or gives up at once -/
  | park (m : MemWord)
  /-- a leaf denies it: the threads, and the lowest one's address -/
  | denied (mask : Mask) (addr : Addr)
  deriving DecidableEq, Repr

/-- Fault records for the pages that have none resolved, each at the faulting address; the tokens (R359). -/
def State.reportPages (s : State) (core part : Nat) (asid : BitVec 16) (need : Need) (at_ : Nat → Nat) : List Nat → State × List Nat
  | [] => (s, [])
  | p :: ps =>
    let (s1, t) := s.reportFault core part asid (at_ p) need
    let (s2, ts) := s1.reportPages core part asid need at_ ps
    (s2, t :: ts)

/-- A translation failed with a kind of failure. -/
def failedWith (f : WalkFail → Bool) : Except WalkFail Leaf → Bool
  | .ok _ => false
  | .error e => f e

/-- The walk found no valid entry. -/
def WalkFail.isInvalid : WalkFail → Bool
  | .invalid => true
  | .poison _ | .beyond _ => false

/-- The walk met a poisoned block. -/
def WalkFail.isPoison : WalkFail → Bool
  | .poison _ => true
  | .invalid | .beyond _ => false

/-- An address whose page's translation failed in a way. -/
def Leaves.fails (ls : Leaves) (f : WalkFail → Bool) (va : Nat) : Bool := (Map.find ls (va / 65536)).any (failedWith f)

/-- Pages poisoned or beyond the partition's space take their effect (R366). -/
def State.walkEffects (s : State) (core part : Nat) (asid : BitVec 16) (ls : Leaves) : State :=
  ls.foldl (fun s p => match p.2 with
    | .error (.poison b) => s.poisonMet core part asid b
    | .error (.beyond a) => { s with beyond := some (part, a) }
    | .error .invalid => s
    | .ok _ => s) s

/-- Translation of pages for a word, and what comes of it (R161, R291 stages 8 and 9, R302, R359, R366). -/
def State.attempt (s : State) (core part : Nat) (asid : BitVec 16) (m : MemWord) (mask : Mask) (pages : List Nat) : State × Attempt :=
  let (s0, ls) := s.translatePages core part asid pages
  let s1 := s0.walkEffects core part asid ls
  let faulting := pages.filter (fun p => ls.fails WalkFail.isInvalid (p * 65536))
  if !faulting.isEmpty then
    if s1.hasQueue part asid.toNat then
      let first (p : Nat) : Nat := (m.offenders mask (fun va => va / 65536 == p)).2.toNat % 2 ^ 57
      let (s2, ts) := s1.reportPages core part asid m.spec.need first faulting
      (s2, .park { m with tokens := ts, parked := true })
    else
      let (bad, a) := m.offenders mask (ls.fails WalkFail.isInvalid)
      (s1, .park { m with parked := true, gaveUp := some (.pageFault, bad, a) })
  else
    let (bad, a) := m.offenders mask (ls.fails WalkFail.isPoison)
    if bad ≠ 0 then (s1, .park { m with parked := true, gaveUp := some (.translationPoison, bad, a) })
    else
      let (no, b) := m.offenders mask (fun va => ((ls.at_ va).bind (fun l => s1.granted part l m.spec.need m.tag.toNat va)).isNone)
      if no ≠ 0 then (s1, .denied no b) else (s1, .ready ls)

/-- The trap a word raises: TELEM names its data or address operand for the lowest offending thread (R42, R160). -/
def MemWord.trap (m : MemWord) (cause : Cause) (mask : Mask) (addr : Addr) : Trap :=
  ⟨cause, mask, Mask.lowest mask, m.telems[Mask.lowest mask], addr⟩

/-- How far an atomic gets over its pages. -/
inductive Progress
  | complete
  | stopped (a : Attempt)
  deriving DecidableEq, Repr

/-- The lanes of an atomic applied one page at a time, ascending (R174). -/
def State.atomPages (s : State) (core part id : Nat) (asid : BitVec 16) (m : MemWord) : List Nat → State × MemWord × Progress
  | [] => (s, m, .complete)
  | p :: ps =>
    let mask := Mask.ofPred (fun t => Mask.has (m.served &&& ~~~(s.awaited core id)) t && m.va t 0 / 65536 == p)
    if mask = 0 then s.atomPages core part id asid m ps
    else
      let (s1, a) := s.attempt core part asid m mask [p]
      match a with
      | .ready ls =>
        let (s2, m1) := s1.atomLanes core part id (s1.goes part ls m) m mask
        s2.atomPages core part id asid { m1 with applied := m1.applied ||| mask } ps
      | .park m1 => (s1, m1, .stopped (.park m1))
      | .denied no a => (s1, m, .stopped (.denied no a))

/-! ## What holds a word back at issue (R258, R261, R380) -/

/-- The words of a wave that are not complete and have not been performed, by number. -/
def State.wavePending (s : State) (core ctx wv : Nat) : List (Nat × MemWord) :=
  ((s.core core).log ++ (s.core core).reqs).filter (fun e => e.2.ctx == ctx && e.2.wave == wv && !e.2.performed)

/-- Those that come before a slot's next word. -/
def State.pendingWords (s : State) (h : Here) : List (Nat × MemWord) :=
  (s.wavePending h.g.core h.ctx h.wv).filter (fun e => (h.w.slots[h.k]).follows e.1 e.2)

/-- Two words touch a common address of one space. -/
def MemWord.meets (a b : MemWord) : Bool :=
  a.spec.space == b.spec.space && (Mask.lanes a.cov).any (fun t => (Mask.lanes b.cov).any (fun u =>
    decide (a.addrs[t].toNat < b.addrs[u].toNat + b.spec.size) && decide (b.addrs[u].toNat < a.addrs[t].toNat + a.spec.size)))

/-- Where the runs of a word's lanes lie, as far as its pages are mapped now, and how long they are. -/
def State.spots (s : State) (ctx : Nat) (g : Group) (m : MemWord) : List (Target × Nat) :=
  (Mask.lanes m.cov).flatMap (fun t =>
    match m.spec.space with
    | .scratch => ((s.scratchAt ctx g (m.addrs[t].setWidth 32) m.spec.size).map (fun x => (x, m.spec.size))).toList
    | .window => (((winAt m.addrs[t]).bind s.winScratch).map (fun x => (x, m.spec.size))).toList
    | .global => (m.usedRuns t).filterMap (fun r =>
        match s.walk g.part g.asid.toNat (m.va t r.1) with
        | .ok l => (s.behindLeaf g.part l false m.tag.toNat (m.va t r.1)).map (fun x => (x, r.2))
        | .error _ => none))

/-- The scratch bytes that an LD2S writes (R165). -/
def State.copySpots (s : State) (ctx : Nat) (g : Group) (m : MemWord) : List (Target × Nat) :=
  if m.spec.kind = .ld2s then
    (Mask.lanes m.cov).filterMap (fun t => (s.scratchAt ctx g m.aux[t] m.spec.size).map (fun x => (x, m.spec.size)))
  else []

/-- Two runs share a byte. -/
def Target.overlaps : Target × Nat → Target × Nat → Bool
  | (.dev a _, n), (.dev b _, m) => decide (a < b + m) && decide (b < a + n)
  | (.host a, n), (.host b, m) => decide (a < b + m) && decide (b < a + n)
  | (.peer v a, n), (.peer w b, m) => v == w && decide (a < b + m) && decide (b < a + n)
  | (.scratch v a, n), (.scratch w b, m) => v == w && decide (a < b + m) && decide (b < a + n)
  | (.share v a, n), (.share w b, m) => v == w && decide (a < b + m) && decide (b < a + n)
  | _, _ => false

/-- A run in MMIO memory. -/
def Target.isMmio : Target → Bool
  | .mmio _ => true
  | .dev _ _ | .host _ | .peer _ _ | .scratch _ _ | .share _ _ => false

/-- Two words of a slot are bound by the place they touch: a common byte, by whatever space or address they name it (R259), or MMIO
memory, where accesses keep their order (R354); a page of the earlier word that is not mapped may be MMIO. -/
def State.sharesPlace (s : State) (ctx : Nat) (g : Group) (a b : MemWord) : Bool :=
  let xs := s.spots ctx g a
  let ys := s.spots ctx g b
  a.meets b || (xs ++ s.copySpots ctx g a).any (fun x => (ys ++ s.copySpots ctx g b).any (fun y => Target.overlaps x y)) ||
  (ys.any (fun y => y.1.isMmio) && (xs.any (fun x => x.1.isMmio) || (a.spec.space == .global && xs.length < ((Mask.lanes a.cov).flatMap a.usedRuns).length)))

/-- A release: it waits for every earlier access of the slot. -/
def orderReleases : Order → Bool
  | .rel | .ar => true
  | .rlx | .acq => false

/-- An acquire: later accesses of the slot wait for it. -/
def orderAcquires : Order → Bool
  | .acq | .ar => true
  | .rlx | .rel => false

/-- The requests of a word: the 64-byte lines its lanes touch (R256). -/
def MemWord.requests (m : MemWord) : Nat :=
  (((Mask.lanes m.cov).flatMap (fun t => (m.edges t).map (fun o => m.va t o / 64))).dedup).length

/-- The requests that a core holds in flight: those of its words, and the lanes that others have sent to peers (R256, R380). -/
def State.inFlight (s : State) (core : Nat) : Nat :=
  ((s.core core).reqs.map (fun e => e.2.requests)).sum +
  (s.remote.filter (fun o => o.2.core == core && (o.2.cover.isSome || (Map.find (s.core core).reqs o.2.word).isNone))).length

/-- A word would pass the 768 requests that a core holds in flight (R256). -/
def State.linesFull (s : State) (core : Nat) (m : MemWord) : Bool :=
  let n := s.inFlight core
  decide (0 < n) && decide (Config.requestsInFlight < n + m.requests)

/-- An LD2S of the slot that has read its bytes and has not landed them writes bytes that a word touches (R259). -/
def State.underCopy (s : State) (h : Here) (m : MemWord) : Bool :=
  (s.core h.g.core).reqs.any (fun e => e.2.ctx == h.ctx && e.2.wave == h.wv && e.2.performed && e.2.spec.kind == .ld2s &&
    (h.w.slots[h.k]).follows e.1 e.2 &&
    (s.copySpots h.ctx h.g e.2).any (fun x => (s.spots h.ctx h.g m ++ s.copySpots h.ctx h.g m).any (fun y => Target.overlaps x y)))

/-- A word waits for an earlier one of its slot (R258, R261, R266, R354, R380), or for room (R256). -/
def State.heldBack (s : State) (h : Here) (m : MemWord) : Bool :=
  let p := h.w.slots[h.k]
  (s.pendingWords h).any (fun e => orderAcquires e.2.spec.order || orderReleases m.spec.order || decide (e.1 < p.after) ||
    decide (e.1 < p.afterAll) || s.sharesPlace h.ctx h.g e.2 m) ||
  (m.spec.kind == .mscmd && !(s.wavePending h.g.core h.ctx h.wv).isEmpty) ||
  (orderReleases m.spec.order && m.spec.scope == .system && s.unanswered h.ctx h.wv p) || s.underCopy h m || s.linesFull h.g.core m

/-- No word of a slot is pending, and no remote write of it unanswered: what FENCE, engine commands, PUBL and barrier
arrivals wait for (R258, R380). -/
def State.slotQuiet (s : State) (h : Here) : Bool :=
  (s.pendingWords h).isEmpty && !s.unanswered h.ctx h.wv h.w.slots[h.k]

/-! ## Issue -/

/-- The threads of a mask whose address is no multiple of the access size (R159). -/
def MemWord.misaligned (m : MemWord) : Mask :=
  match m.spec.kind with
  | .ldu | .stu => 0
  | .load | .store | .ld2s | .mscmd | .atom | .red | .cas =>
    Mask.ofPred (fun t => Mask.has m.cov t && decide (m.addrs[t].toNat % m.spec.size ≠ 0))

/-- The threads with an access whose address is not canonical (R435). -/
def MemWord.wild (m : MemWord) : Mask :=
  Mask.ofPred (fun t => Mask.has m.cov t && !(m.offsets t).isEmpty && (canonical m.addrs[t]).isNone)

/-- A run in peer memory. -/
def Target.isPeer : Target → Bool
  | .peer _ _ => true
  | .dev _ _ | .host _ | .mmio _ | .scratch _ _ | .share _ _ => false

/-- The lanes of a word that would go to a peer, as far as its pages are mapped now. -/
def State.remoteLanes (s : State) (ctx : Nat) (g : Group) (m : MemWord) : Nat :=
  if m.spec.space = .global then ((s.spots ctx g { m with cov := m.served }).filter (fun x => x.1.isPeer)).length else 0

/-- The lanes of a word that go to peers find no room in the outstanding list, or no serials (R256, R380, R384). -/
def State.remoteFullFor (s : State) (core ctx : Nat) (g : Group) (m : MemWord) : Bool :=
  let n := s.remoteLanes ctx g m
  s.remoteFull core ctx n (if m.spec.kind.loads then 0 else n)

/-- A word parks: its entry in the operand log, and the slot goes on (R161, R257). -/
def State.park (s : State) (h : Here) (id : Nat) (m : MemWord) : State :=
  (s.modCore h.g.core (fun c => { c.dropWord id with log := Map.insert (c.dropWord id).log id m })).stepOn h

/-- An atomic in global space: its pages one after another, ascending (R174); lanes applied before a page denies keep a log entry, and
where the log is full the word holds its slot (R242). A word that the halt of another wave's trap stops has no effect (R295). -/
def State.issueAtomic (s : State) (h : Here) (id : Nat) (m : MemWord) : State :=
  let core := h.g.core
  let logFree := (s.core core).logFree
  let stall : State := s.putWave h (h.w.stallAt h.k .stall)
  let (s2, m2, p) := s.atomPages core h.g.part id h.g.asid m (m.pages m.cov)
  match p with
  | .complete => (s2.settleWord core h.g.part id m2 (some h.k)).stepOn h
  | .stopped (.park m3) => if logFree then s2.park h id m3 else stall
  | .stopped (.denied no x) =>
    if m2.applied = 0 ∧ s2.awaited core id = 0 then s2.takeTrap h (m2.trap .permission no x)
    else if h.g.stopsAt h.wv (s.core core).clock.toNat then s.takeTrap h (m2.trap .permission no x)
    else if logFree then
      let m3 := { m2 with parked := true, gaveUp := some (.permission, no, x) }
      (s2.modCore core (fun c => { c with log := Map.insert c.log id m3 })).trapIn h.ctx h.wv h.k (m2.trap .permission no x) h.pc
        (h.pc + 8) (some id)
    else stall
  | .stopped (.ready _) => s2

/-- A word joins the requests of its core, and the slot goes on. -/
def State.queueWord (s : State) (h : Here) (id : Nat) (m : MemWord) : State :=
  (s.modCore h.g.core (fun c => { c with reqs := Map.insert c.reqs id m })).stepOn h

/-- The lowest page of an atomic is resolved and grants it: what it does there leaves the core once the word is old enough (R174, R307). -/
def State.firstPage (s : State) (h : Here) (m : MemWord) : State × Bool :=
  let (s1, a) := s.attempt h.g.core h.g.part h.g.asid m
    (Mask.ofPred (fun t => Mask.has m.cov t && (m.pages m.cov).head? == some (m.va t 0 / 65536))) ((m.pages m.cov).take 1)
  match a with
  | .ready _ => (s1, true)
  | .park _ | .denied _ _ => (s, false)

/-- A word whose checks have passed, in global space. -/
def State.issueGlobal (s : State) (h : Here) (m : MemWord) : State :=
  let core := h.g.core
  let id := s.nextId
  let s0 := s.takeId
  let stall : State := s.putWave h (h.w.stallAt h.k .stall)
  if s.remoteFullFor core h.ctx h.g m then stall
  else if m.spec.kind.atomic then
    if s.deferred && (s0.firstPage h m).2 then (s0.firstPage h m).1.queueWord h id m else s0.issueAtomic h id m
  else
    let (s1, a) := s0.attempt core h.g.part h.g.asid m m.cov (m.pages m.cov)
    match a with
    | .ready ls =>
      if s.deferred then s1.queueWord h id m else (s1.performWord core h.g.part id (s1.goes h.g.part ls m) m (some h.k)).stepOn h
    | .park m1 => if (s.core core).logFree then s1.park h id m1 else stall
    | .denied no x => s1.takeTrap h (m.trap .permission no x)

/-- Where a thread's scratch access goes. -/
def State.scratchGoes (s : State) (ctx : Nat) (g : Group) (m : MemWord) (t : Lane) (off : Nat) : Option Target :=
  s.scratchAt ctx g ((m.addrs[t] + BitVec.ofNat 64 off).setWidth 32) 1

/-- A thread's scratch access is permitted: every selected byte for LDU and STU, the whole access otherwise; atomics and
LD2S name the local scratchpad only (R158, R164, R172). -/
def State.scratchPermits (s : State) (ctx : Nat) (g : Group) (m : MemWord) (t : Lane) : Bool :=
  match m.spec.kind with
  | .ldu | .stu => (m.edges t).all (fun o => (s.scratchGoes ctx g m t o).isSome)
  | .load | .store | .ld2s | .mscmd => (s.scratchAt ctx g (m.addrs[t].setWidth 32) m.spec.size).isSome
  | .atom | .red | .cas => decide (m.addrs[t].toNat % 2 ^ 32 < 2 ^ 30) && (s.scratchAt ctx g (m.addrs[t].setWidth 32) m.spec.size).isSome

/-- A word in scratch space: its range check, then its effect. -/
def State.issueScratch (s : State) (h : Here) (m : MemWord) : State :=
  let no := Mask.ofPred (fun t => Mask.has m.cov t && !s.scratchPermits h.ctx h.g m t)
  if no ≠ 0 then s.takeTrap h (m.trap .permission no (m.addrs[Mask.lowest no]))
  else
    let id := s.nextId
    if s.deferred then s.takeId.queueWord h id m
    else (s.takeId.performWord h.g.core h.g.part id (s.scratchGoes h.ctx h.g m) m (some h.k)).stepOn h

/-- Where a thread's window access goes, if it may go there (R255). -/
def State.winPlace (s : State) (part : Nat) (m : MemWord) (t : Lane) : Option WinAt :=
  (s.winOk part m.addrs[t] m.spec.size).bind (fun a =>
    if m.spec.kind == .store && !a.takes (BitVec.ofNat 32 (m.datum t)) then none else some a)

/-- A lane of a window word has to wait for a register's pending write, or for matrix order (R255). -/
def State.winHeld (s : State) (part : Nat) (m : MemWord) : Bool := (Mask.lanes m.cov).any (fun t => (s.winPlace part m t).any s.winBusy)

/-- The stores of a window word, lane by lane. -/
def State.windowStores (s : State) (part : Nat) (m : MemWord) : State :=
  (Mask.lanes m.cov).foldl (fun s t => match s.winPlace part m t with
    | none => s
    | some a => s.winWrite part a (bytesOf m.spec.size (m.datum t))) s

/-- Every lane of a window word lies in one core. -/
def MemWord.winWithin (m : MemWord) (core : Nat) : Bool := (Mask.lanes m.cov).all (fun t => (winAt m.addrs[t]).any (fun a => a.core == core))

/-- A word in window space (R254, R255); what it stores outside its core leaves once the word is old enough (R307). -/
def State.issueWindow (s : State) (h : Here) (m : MemWord) : State :=
  let no := Mask.ofPred (fun t => Mask.has m.cov t && (s.winPlace h.g.part m t).isNone)
  if no ≠ 0 then s.takeTrap h (m.trap .permission no m.addrs[Mask.lowest no])
  else if s.winHeld h.g.part m then s.putWave h (h.w.stallAt h.k .stall)
  else if m.spec.kind == .store then
    if s.deferred && !m.winWithin h.g.core then s.takeId.queueWord h s.nextId m else (s.windowStores h.g.part m).stepOn h
  else
    let (s1, m1) := (Mask.lanes m.cov).foldl (fun (s, m) t => match s.winPlace h.g.part m t with
      | none => (s, m)
      | some a =>
        let (s1, bs, bad) := s.winSeen h.g.core h.g.part a m.spec.size
        (s1, m.got t (BitVec.ofNat 128 (leNat bs)) bad)) (s, m)
    (s1.deliver h.g.core s.nextId m1 (some h.k)).stepOn h

/-- A memory word with its operands read: ordering, alignment, range, canonical addresses, translation, effect (R291). -/
def State.issueMem (s : State) (h : Here) (m : MemWord) : State :=
  if m.cov = 0 then s.putWave h (h.w.advance h.k)
  else if m.misaligned ≠ 0 then s.takeTrap h (m.trap .misaligned m.misaligned m.addrs[Mask.lowest m.misaligned])
  else if s.heldBack h m then s.putWave h (h.w.stallAt h.k .stall)
  else
    match m.spec.space with
    | .scratch => s.issueScratch h m
    | .window => s.issueWindow h m
    | .global =>
      if m.wild ≠ 0 then s.takeTrap h { m.trap .pageFault m.wild m.addrs[Mask.lowest m.wild] with telem := m.highs[Mask.lowest m.wild] }
      else s.issueGlobal h m

/-! ## Operands (R91, R156) -/

/-- Every thread's value of a global address pair with an offset: gaddr. -/
def Wave.gaddrs (w : Wave) (va : Nat) (off : BitVec 12) : Vector Addr 32 :=
  Vector.ofFn (fun t => w.read64 va t + off.signExtend 64)

/-- Every thread's scratch address with an offset: saddr. -/
def Wave.saddrs (w : Wave) (va : Nat) (off : BitVec 12) : Vector Addr 32 :=
  Vector.ofFn (fun t => (w.read va t + off.signExtend 32).setWidth 64)

/-- What TELEM names for each thread. -/
def Wave.telems (w : Wave) (r : Nat) : Row := Vector.ofFn (fun t => w.telem r t)

/-- The registers of a size, from one up (R75). -/
def sizeRegs (m : MSize) (r : Nat) : List Nat :=
  match m with
  | .b | .h | .w => [r]
  | .d => [r, r + 1]
  | .q => [r, r + 1, r + 2, r + 3]

/-- The address registers are tagged uniform. -/
def Wave.uniformAt (w : Wave) (rs : List Nat) : Bool := rs.all (fun r => (w.reg r).tag == .uniform)

/-- A word with no lane performed; `srcs` are the registers of its addresses and byte masks. -/
def Here.memWord (h : Here) (s : State) (g : Guard) (spec : MemSpec) (addrs : Vector Addr 32) (data : List Nat) (named : Nat)
    (srcs : List Nat) : MemWord :=
  { ctx := h.ctx, wave := h.wv, slot := h.w.slots[h.k].label, pc := h.pc, spec := spec, cov := h.cov g, addrs := addrs,
    aux := Vector.replicate 32 0, data := data.map h.w.readRow, lays := (srcs ++ data).dedup.map (fun r => (h.w.reg r).loc),
    telems := h.w.telems named, highs := h.w.telems (if data.isEmpty && spec.space == .global then named + 1 else named), bar := 0, tag := h.w.tag,
    applied := 0, returns := Vector.replicate 32 0, badLanes := 0, tokens := [], parked := false, gaveUp := none,
    performed := false, left := false, issued := (s.core h.g.core).clock.toNat }

/-- The registers of an address operand: one for a scratch address, a pair otherwise. -/
def addrRegs (scratch : Bool) (va : Reg) : List Nat := if scratch then [va.toNat] else [va.toNat, va.toNat + 1]

/-- What an M-class word asks. -/
def memSpec (m : MemMod) (kind : MemKind) (dests : List Nat) (uniform : Bool) : MemSpec :=
  ⟨kind, m.space, m.size.bytes, m.sx, m.order, m.scope, .add, dests, uniform⟩

/-! ## The instructions -/

/-- A word that may name the window: unprivileged code raises PRIVILEGE, whatever it covers (R77, R193). -/
def State.inWindow (s : State) (m : MemMod) (f : Here → State) : Host.Outcome State Fault Refusal :=
  s.act (fun h => if m.space == .window && !h.g.priv then s.takeTrap h (Trap.of .privilege (h.w.exec h.k)) else f h)

/-- LD (R162). -/
def execLd (g : Guard) (vd va : Reg) (m : MemMod) (off : BitVec 12) (s : State) : Host.Outcome State Fault Refusal :=
  s.inWindow m (fun h => s.issueMem h (h.memWord s g
    (memSpec m .load (sizeRegs m.size vd.toNat) (h.w.full (h.cov g) && h.w.uniformAt [va.toNat, va.toNat + 1]))
    (h.w.gaddrs va.toNat off) [] va.toNat (addrRegs false va)))

/-- ST (R162). -/
def execSt (g : Guard) (vd va : Reg) (m : MemMod) (off : BitVec 12) (s : State) : Host.Outcome State Fault Refusal :=
  s.inWindow m (fun h => s.issueMem h (h.memWord s g (memSpec m .store [] false) (h.w.gaddrs va.toNat off) (sizeRegs m.size vd.toNat) vd.toNat
    (addrRegs false va)))

/-- LDS (R163). -/
def execLds (g : Guard) (vd va : Reg) (m : MemMod) (off : BitVec 12) (s : State) : Host.Outcome State Fault Refusal :=
  s.act (fun h => s.issueMem h (h.memWord s g
    (memSpec m .load (sizeRegs m.size vd.toNat) (h.w.full (h.cov g) && h.w.uniformAt [va.toNat])) (h.w.saddrs va.toNat off) [] va.toNat (addrRegs true va)))

/-- STS (R163). -/
def execSts (g : Guard) (vd va : Reg) (m : MemMod) (off : BitVec 12) (s : State) : Host.Outcome State Fault Refusal :=
  s.act (fun h => s.issueMem h (h.memWord s g (memSpec m .store [] false) (h.w.saddrs va.toNat off) (sizeRegs m.size vd.toNat) vd.toNat
    (addrRegs true va)))

/-- The addresses of a word that names global or scratch space. -/
def Wave.addrsIn (w : Wave) (scratch : Bool) (va : Nat) (off : BitVec 12) : Vector Addr 32 :=
  if scratch then w.saddrs va off else w.gaddrs va off

/-- LDU (R164). -/
def execLdu (g : Guard) (vd va vb : Reg) (m : MemMod) (off : BitVec 12) (s : State) : Host.Outcome State Fault Refusal :=
  s.act (fun h => s.issueMem h
    { h.memWord s g (memSpec m .ldu (sizeRegs m.size vd.toNat) false) (h.w.addrsIn (m.space == .scratch) va.toNat off) [] va.toNat
        (addrRegs (m.space == .scratch) va ++ [vb.toNat]) with
      aux := h.w.readRow vb.toNat })

/-- STU (R164). -/
def execStu (g : Guard) (vd va vb : Reg) (m : MemMod) (off : BitVec 12) (s : State) : Host.Outcome State Fault Refusal :=
  s.act (fun h => s.issueMem h
    { h.memWord s g (memSpec m .stu [] false) (h.w.addrsIn (m.space == .scratch) va.toNat off) (sizeRegs m.size vd.toNat) vd.toNat
        (addrRegs (m.space == .scratch) va ++ [vb.toNat]) with
      aux := h.w.readRow vb.toNat })

/-- LD2S's own checks, in the order of R291: the barrier number, its range, alignment, the scratch range (R165). -/
def State.issueLd2s (s : State) (h : Here) (m : MemWord) (vd : Nat) : State :=
  if m.cov = 0 then s.putWave h (h.w.advance h.k)
  else
    match h.w.agree m.cov vd with
    | .error t => s.takeTrap h t
    | .ok b =>
      let n := m.spec.size
      let misG := m.misaligned
      let mis := Mask.ofPred (fun t => Mask.has m.cov t && (decide (m.addrs[t].toNat % n ≠ 0) || decide (m.aux[t].toNat % n ≠ 0)))
      let no := Mask.ofPred (fun t => Mask.has m.cov t &&
        (decide (2 ^ 30 ≤ m.aux[t].toNat) || (s.scratchAt h.ctx h.g m.aux[t] n).isNone))
      if 15 < b.toNat then s.takeTrap h (Trap.named h.w .barrierMisuse m.cov vd 0)
      else if mis ≠ 0 then
        let t := Mask.lowest mis
        s.takeTrap h (m.trap .misaligned mis (if Mask.has misG t then m.addrs[t] else m.aux[t].setWidth 64))
      else if no ≠ 0 then s.takeTrap h (m.trap .permission no (m.aux[Mask.lowest no].setWidth 64))
      else s.issueMem h { m with bar := b.toNat }

/-- LD2S (R165). -/
def execLd2s (g : Guard) (vd va vb : Reg) (m : MemMod) (off : BitVec 12) (s : State) : Host.Outcome State Fault Refusal :=
  s.act (fun h => s.issueLd2s h
    { h.memWord s g (memSpec m .ld2s [] false) (h.w.gaddrs va.toNat off) [] va.toNat (addrRegs false va ++ [vb.toNat, vd.toNat]) with
      aux := h.w.readRow vb.toNat } vd.toNat)

/-! ## Prefetch and cache maintenance (R166, R167): residency and timing alone -/

/-- The device-memory line of an address, if it translates; PREF asks for read permission too. -/
def State.lineAt (s : State) (h : Here) (permitted : Bool) (a : Addr) : Option Nat :=
  match canonical a with
  | none => none
  | some va =>
    match s.walk h.g.part h.g.asid.toNat va with
    | .error _ => none
    | .ok l =>
      match (if permitted then s.granted h.g.part l .read h.w.tag.toNat va else s.behindLeaf h.g.part l false h.w.tag.toNat va) with
      | some (.dev ga _) => some (ga / 64)
      | _ => none

/-- The device-memory lines the covered threads name, once each. -/
def State.linesAt (s : State) (h : Here) (cov : Mask) (permitted : Bool) (va : Nat) (off : BitVec 12) : List Nat :=
  ((Mask.lanes cov).filterMap (fun t => s.lineAt h permitted (h.w.gaddrs va off)[t])).dedup

/-- A line becomes resident in a cache of so many lines; which line leaves a full one is not fixed (log entry 63). -/
def cacheLine (draw capacity : Nat) (mine : Nat → Bool) (ls : List Nat) (l : Nat) : List Nat :=
  let held := ls.filter mine
  if ls.contains l then ls
  else if held.length < capacity then insertNat l ls
  else insertNat l (ls.erase (held[Config.cacheVictim draw % held.length]?.getD 0))

/-- PREF (R166): the lines become resident in their home slices of 2 MiB, and in the L1 of 128 KiB unless the hint keeps them out (R1, R253). -/
def execPref (g : Guard) (va : Reg) (hint : Hint) (off : BitVec 12) (s : State) : Host.Outcome State Fault Refusal :=
  s.act (fun h =>
    let ls := s.linesAt h (h.cov g) true va.toNat off
    let s1 := ls.foldl (fun s l => { s.draw with
      homeLines := cacheLine s.fresh 32768 (fun x => x / Config.channelLines == l / Config.channelLines) s.homeLines l }) s
    let s2 := if hint == .noL1 then s1 else ls.foldl (fun s l =>
      s.draw.modCore h.g.core (fun c => { c with l1 := cacheLine s.fresh 2048 (fun _ => true) c.l1 l })) s1
    s2.putWave h (h.w.advance h.k))

/-- CMAINT.drop (R167): an address that does not translate, or maps no device memory, is ignored. -/
def execCmaintDrop (g : Guard) (va : Reg) (off : BitVec 12) (s : State) : Host.Outcome State Fault Refusal :=
  s.act (fun h =>
    let ls := s.linesAt h (h.cov g) false va.toNat off
    (s.modCore h.g.core (fun c => { c with l1 := c.l1.filter (fun l => !ls.contains l) })).putWave h (h.w.advance h.k))

/-- CMAINT.dropall (R167). -/
def execCmaintDropall (g : Guard) (s : State) : Host.Outcome State Fault Refusal :=
  s.act (fun h =>
    (if h.cov g = 0 then s else s.modCore h.g.core (fun c => { c with l1 := [] })).putWave h (h.w.advance h.k))

/-- CMAINT.clean (R167): the line stays in its home slice; DRAM and the home slice are one value for every agent (R253). -/
def execCmaintClean (g : Guard) (va : Reg) (off : BitVec 12) (s : State) : Host.Outcome State Fault Refusal :=
  s.act (fun h =>
    let ls := s.linesAt h (h.cov g) false va.toNat off
    ({ s with homeLines := ls.foldl (fun r l => if r.contains l then insertNat l r else r) s.homeLines }).putWave h (h.w.advance h.k))

/-- CMAINT.flush (R167). -/
def execCmaintFlush (g : Guard) (va : Reg) (off : BitVec 12) (s : State) : Host.Outcome State Fault Refusal :=
  s.act (fun h =>
    let ls := s.linesAt h (h.cov g) false va.toNat off
    ({ s with homeLines := s.homeLines.filter (fun l => !ls.contains l) }).putWave h (h.w.advance h.k))

/-! ## Atomics (R168–R174) -/

/-- The registers of an atomic's size. -/
def atomRegs (a : AtomMod) (r : Nat) : List Nat := if a.wide then [r, r + 1] else [r]

/-- What an A-class word asks. -/
def atomSpec (a : AtomMod) (kind : MemKind) (dests : List Nat) : MemSpec :=
  ⟨kind, if a.scratch then .scratch else .global, if a.wide then 8 else 4, false, a.order, a.scope, a.aop, dests, false⟩

/-- ATOM (R169). -/
def execAtom (g : Guard) (vd va vb : Reg) (a : AtomMod) (off : BitVec 12) (s : State) : Host.Outcome State Fault Refusal :=
  s.act (fun h => s.issueMem h (h.memWord s g (atomSpec a .atom (atomRegs a vd.toNat)) (h.w.addrsIn a.scratch va.toNat off) (atomRegs a vb.toNat) vb.toNat
    (addrRegs a.scratch va)))

/-- RED (R170). -/
def execRed (g : Guard) (va vb : Reg) (a : AtomMod) (off : BitVec 12) (s : State) : Host.Outcome State Fault Refusal :=
  s.act (fun h => s.issueMem h (h.memWord s g (atomSpec a .red []) (h.w.addrsIn a.scratch va.toNat off) (atomRegs a vb.toNat) vb.toNat (addrRegs a.scratch va)))

/-- CAS (R171): the compare value, then the new one. -/
def execCas (g : Guard) (vd va vb : Reg) (a : AtomMod) (off : BitVec 12) (s : State) : Host.Outcome State Fault Refusal :=
  s.act (fun h => s.issueMem h (h.memWord s g (atomSpec a .cas (atomRegs a vd.toNat)) (h.w.addrsIn a.scratch va.toNat off)
    (atomRegs a vb.toNat ++ atomRegs a (vb.toNat + (if a.wide then 2 else 1))) vb.toNat (addrRegs a.scratch va)))

/-- FENCE (R175): it goes on once every earlier access of the slot has been performed, whatever EXEC and the guard hold. -/
def execFence (_g : Guard) (_order : Order) (_scope : Scope) (s : State) : Host.Outcome State Fault Refusal :=
  s.act (fun h => s.putWave h (if s.slotQuiet h then h.w.advance h.k else h.w.stallAt h.k .stall))

/-- MSCMD (R176). -/
def execMscmd (g : Guard) (vd va : Reg) (off : BitVec 12) (s : State) : Host.Outcome State Fault Refusal :=
  s.act (fun h => s.issueMem h
    { h.memWord s g ⟨.mscmd, .global, 4, false, .rel, .memside, .add, [], false⟩ (h.w.gaddrs va.toNat off) [vd.toNat] vd.toNat (addrRegs false va) with
      telems := Vector.replicate 32 noElem, highs := Vector.replicate 32 noElem })

/-! ## Replay and give-up (R258, R302, R360) -/

/-- The effect of a request stays inside its core. -/
def MemWord.inside (m : MemWord) : Bool :=
  m.spec.kind.loads || (m.spec.space == .scratch && (Mask.lanes m.cov).all (fun t => decide (m.addrs[t].toNat % 2 ^ 32 < 2 ^ 30)))

/-- The word is old enough for what it does to leave its core (R307). -/
def State.mayLeave (s : State) (core : Nat) (m : MemWord) : Bool := !s.deferred || m.left || m.inside || s.aged core m.issued

/-- An earlier word of the slot that is not performed is bound to a word by the place they touch (R259, R354). -/
def State.behindEarlier (s : State) (core id : Nat) (g : Group) (m : MemWord) : Bool :=
  (s.wavePending core m.ctx m.wave).any (fun e => decide (e.1 < id) && e.2.slot == m.slot && s.sharesPlace m.ctx g e.2 m)

/-- The word finds room among the requests in flight, and for the lanes it sends to peers (R256, R380, R384). -/
def State.requestsFit (s : State) (core id : Nat) (g : Group) (m : MemWord) : Bool :=
  ((Map.find (s.core core).reqs id).isSome || !s.linesFull core m) && !s.remoteFullFor core m.ctx g m

/-- A word that has issued may be performed now. -/
def State.mayPerform (s : State) (core id : Nat) (g : Group) (m : MemWord) : Bool :=
  s.mayLeave core m && !s.behindEarlier core id g m && s.requestsFit core id g m && (m.spec.space != .window || !s.winHeld g.part m)

/-- A word of the operand log whose pages have been resolved waits to be performed. -/
def State.waitsInLog (s : State) (core id : Nat) : State :=
  s.modCore core (fun c => { c with log := Map.modify c.log id (fun m => { m with tokens := [], parked := false }) })

/-- A word that waits is attempted again, its lanes to dead threads dropped (R305), once it may be performed; one that would park finds the
log full and goes on waiting (R242). -/
def State.replay (s : State) (core id : Nat) : State :=
  match Map.find ((s.core core).log ++ (s.core core).reqs) id with
  | none => s
  | some m =>
    match Map.find s.groups m.ctx with
    | none => s
    | some g =>
      match g.waves[m.wave]? with
      | none => s
      | some w =>
        let m := { m.withoutDead w.dead (s.awaited core id) (Map.find (s.core core).log id).isSome with tokens := [], parked := false }
        if !s.mayPerform core id g m then s.waitsInLog core id
        else
        let mask := m.served &&& ~~~(s.awaited core id)
        let room := (Map.find (s.core core).log id).isSome || (s.core core).logFree
        let parks (s1 : State) (m : MemWord) : State :=
          if room then s1.modCore core (fun c => { c.dropWord id with log := Map.insert (c.dropWord id).log id m }) else s
        if m.spec.space = .window then (s.windowStores g.part m).modCore core (fun c => c.dropWord id)
        else if m.spec.space = .scratch then s.performWord core g.part id (s.scratchGoes m.ctx g m) m none
        else if m.spec.kind.atomic then
          let (s1, m1, p) := s.atomPages core g.part id g.asid m (m.pages mask)
          match p with
          | .complete => s1.settleWord core g.part id m1 none
          | .stopped (.park m2) => parks s1 m2
          | .stopped (.denied no x) => parks s1 { m1 with parked := true, gaveUp := some (.permission, no, x) }
          | .stopped (.ready _) => s1
        else
          let (s1, a) := s.attempt core g.part g.asid m mask (m.pages mask)
          match a with
          | .ready ls => s1.performWord core g.part id (s1.goes g.part ls m) m none
          | .park m1 => parks s1 m1
          | .denied no x => parks s1 { m with parked := true, gaveUp := some (.permission, no, x) }

end Sys2Proof.Machine
end

