-- ==== Sys2Proof/Machine/Rcb.lean ====
section
/-! DEFINITION. Region control blocks: their fields, the armature's tree, effective values, breaks (R318–R322). -/

namespace Sys2Proof.Machine

/-- A field of a record, bits `hi … lo`. -/
def fieldAt {w : Nat} (r : BitVec w) (hi lo : Nat) : Nat := r.toNat / 2 ^ lo % 2 ^ (hi + 1 - lo)

/-- Fields of an RCB. -/
def Rcb.parent (r : Rcb) : Nat := fieldAt r 63 0
/-- CHILD. -/
def Rcb.child (r : Rcb) : Nat := fieldAt r 127 64
/-- NEXT. -/
def Rcb.next (r : Rcb) : Nat := fieldAt r 191 128
/-- QBASE. -/
def Rcb.qbase (r : Rcb) : Nat := fieldAt r 255 192
/-- QLOG. -/
def Rcb.qlog (r : Rcb) : Nat := fieldAt r 259 256
/-- KIND: 0 grid, 1 plain, 2 graph. -/
def Rcb.kind (r : Rcb) : Nat := fieldAt r 261 260
/-- FDOM. -/
def Rcb.fdom (r : Rcb) : Bool := r.getLsbD 262
/-- OVL. -/
def Rcb.ovl (r : Rcb) : Bool := r.getLsbD 263
/-- SPRES of a role. -/
def Rcb.spres (r : Rcb) (role : Nat) : Nat := fieldAt r (339 + 4 * role) (336 + 4 * role)
/-- DEPS. -/
def Rcb.deps (r : Rcb) : Nat := fieldAt r 367 352
/-- TMPL. -/
def Rcb.tmpl (r : Rcb) : Nat := fieldAt r 447 384
/-- SAVE. -/
def Rcb.save (r : Rcb) : Nat := fieldAt r 511 448
/-- NSLOT. -/
def Rcb.nslot (r : Rcb) : Nat := fieldAt r 527 512
/-- SLOTSZ. -/
def Rcb.slotsz (r : Rcb) : Nat := fieldAt r 543 528
/-- STATE. -/
def Rcb.state (r : Rcb) : Nat := fieldAt r 551 544

/-- An RCB as memory holds it. -/
def State.rcb (s : State) (part a : Nat) : Rcb := BitVec.ofNat 1024 (s.physNat part a 128)

/-- An address may hold an RCB of the partition (R318). -/
def State.rcbAt (s : State) (part a : Nat) : Bool := a != 0 && a % 128 == 0 && s.inSpace part a 128

/-- A chain of siblings, at most `fuel` of them. -/
def State.siblings (s : State) (part : Nat) : Nat → Nat → List Nat
  | 0, _ => []
  | fuel + 1, a => if s.rcbAt part a then a :: s.siblings part fuel (s.rcb part a).next else []

/-- The children of a node; a seventeenth shows that there are too many. -/
def State.childrenOf (s : State) (part a : Nat) : List Nat := s.siblings part 17 (s.rcb part a).child

/-- The path from a node to the root, nearest first, at most `fuel` nodes (R318). -/
def State.pathUp (s : State) (part : Nat) : Nat → Nat → Option (List Nat)
  | 0, _ => none
  | fuel + 1, a =>
    if !s.rcbAt part a then none
    else if a = (s.part part).root.toNat then some [a]
    else
      let p := (s.rcb part a).parent
      if s.rcbAt part p && (s.childrenOf part p).contains a then (s.pathUp part fuel p).map (a :: ·) else none

/-- The path of a node of the partition's tree: at most 8 levels. -/
def State.path (s : State) (part a : Nat) : Option (List Nat) := s.pathUp part 8 a

/-- A node and all below it, at most `fuel` levels. -/
def State.subtree (s : State) (part : Nat) : Nat → Nat → List Nat
  | 0, _ => []
  | fuel + 1, a => a :: ((s.childrenOf part a).map (s.subtree part fuel)).flatten

/-! ## Breaks (R321) -/

/-- A reserved field or code of an RCB is nonzero. PRIV and TEST are the firmware's and are not read. DESIGN CHOICE (log entry 92): an address that
R319 wants aligned and that is not, and a grid with a CHILD, which R318 makes a leaf, break those rules too, though R321's list does not name them. -/
def Rcb.reserved (r : Rcb) : Bool :=
  fieldAt r 1023 640 != 0 || fieldAt r 575 560 != 0 || fieldAt r 319 312 != 0 || fieldAt r 303 297 != 0 ||
  fieldAt r 279 278 != 0 || r.getLsbD 271 || r.kind == 3 || (decide (1 ≤ r.qlog) && decide (r.qlog ≤ 3)) ||
  (decide (101 ≤ fieldAt r 311 304) && decide (fieldAt r 311 304 ≤ 254)) ||
  decide (256 < fieldAt r 296 288) || decide (128 < fieldAt r 287 280) || decide (32 < fieldAt r 277 272) ||
  decide (3 < r.state) || (r.qlog != 0 && r.qbase % 64 != 0) || r.save % 4096 != 0 || (r.kind == 0 && r.child != 0)

/-- The siblings that some of them wait for, directly or through others, at most `fuel` steps. -/
def waitsFor (deps : List Nat) : Nat → List Nat → List Nat
  | 0, l => l
  | fuel + 1, l => waitsFor deps fuel (l ++ (List.range 16).filter (fun j => !l.contains j && l.any (fun i => (deps[i]?.getD 0).testBit j)))

/-- DEPS of one of a list of siblings names one that does not exist, or forms a cycle. -/
def depsBroken (deps : List Nat) (i : Nat) : Bool :=
  let own := deps[i]?.getD 0
  decide (2 ^ deps.length ≤ own) || (waitsFor deps 16 ((List.range 16).filter (fun j => own.testBit j))).contains i

/-- The tree goes on below a node for more than so many levels; a cycle of CHILD goes on for ever (R318). -/
def State.deeper (s : State) (part : Nat) : Nat → Nat → Bool
  | 0, a => !(s.childrenOf part a).isEmpty
  | n + 1, a => (s.childrenOf part a).any (s.deeper part n)

/-- A node that lies under a graph has no TMPL it needs, or bad DEPS. -/
def State.graphBroken (s : State) (part a : Nat) (up : List Nat) : Bool :=
  let r := s.rcb part a
  up.any (fun x => (s.rcb part x).kind == 2) &&
  ((r.kind == 0 && r.tmpl == 0) ||
    (match up with
     | [] => false
     | p :: _ =>
       let kids := s.childrenOf part p
       depsBroken (kids.map (fun k => (s.rcb part k).deps)) ((kids.findIdx? (fun k => k == a)).getD 0)))

/-- The node's fields break R318 to R320. -/
def State.broken (s : State) (part a : Nat) : Bool :=
  let r := s.rcb part a
  match s.path part a with
  | none => true
  | some up =>
    r.reserved || (r.kind == 1 && r.qlog != 0) || decide (16 < (s.childrenOf part a).length) || s.deeper part (8 - up.length) a ||
    s.graphBroken part a (up.drop 1)

/-- STATE and CAUSE of a node written. -/
def State.setNode (s : State) (part a st cause : Nat) : State := s.physWrite part (a + 68) (bytesOf 1 st ++ bytesOf 1 cause)

/-- A node stops (R321, R322, R325). -/
def State.stopNode (s : State) (part a cause : Nat) : State :=
  let s1 := s.setNode part a 2 cause
  if cause = 0x87 then s1 else s1.castPart part { cls := 0x0A, cause := cause, addr := BitVec.ofNat 64 a }

/-- PRIV and TEST of a node as the firmware keeps them: bits 5 and 6 of byte 33 (R319). -/
def Partition.attrBits (p : Partition) (a : Nat) : Nat :=
  match p.attrs.find? (fun x => x.1.toNat == a) with
  | none => 0
  | some x => (if x.2.1 then 32 else 0) + (if x.2.2 then 64 else 0)

/-- A host's write to PRIV and TEST is discarded as the node is read (R319). -/
def State.keepAttrs (s : State) (part a : Nat) : State :=
  let b := s.physNat part (a + 33) 1
  let want := (s.part part).attrBits a
  if !s.rcbAt part a || b / 32 % 4 * 32 == want then s else s.physWrite part (a + 33) (bytesOf 1 (b % 32 + want + b / 128 * 128))

/-- The distributor reads nodes: each that breaks R318 to R320 and is not stopped yet stops (R319, R321). -/
def State.readNodes (s : State) (part : Nat) (nodes : List Nat) : State :=
  nodes.foldl (fun s a =>
    let s1 := s.keepAttrs part a
    if s1.broken part a ∧ (s1.rcb part a).state ≠ 2 then s1.stopNode part a 0x86 else s1) s

/-- The root RCB as the firmware creates it at assignment: a plain node without a queue that inherits what it may (R318, R320). -/
def State.makeRoot (s : State) (part : Nat) : State :=
  let a := (s.part part).root.toNat
  if s.rcbAt part a then
    (s.physWrite part a (bytesOf 128 (2 ^ 260 + 2 ^ 268 + 255 * 2 ^ 304))).keepAttrs part a
  else s

/-- LAUNCHES of a node increased (R327). -/
def State.countLaunch (s : State) (part a : Nat) : State :=
  s.physWrite part (a + 72) (bytesOf 8 (s.physNat part (a + 72) 8 + 1))

/-! ## Effective values (R320) -/

/-- Effective values of a node. -/
structure Eff where
  prio : Nat
  clq : Nat
  regq : Nat
  scrq : Nat
  podb : Nat
  bint : Nat
  asel : Nat
  priv : Bool
  test : Bool
  deriving DecidableEq, Repr

/-- What the root inherits. -/
def Partition.rootEff (p : Partition) : Eff := ⟨0, p.clusterList.length, 128, 256, 0, 2048, p.asidFirst + 1, false, false⟩

/-- The value, or the inherited one where it stands for inheriting. -/
def orInherit (inherit own parent : Nat) : Nat := if own = inherit then parent else own

/-- A quota: the minimum of the node's and its parent's, or the parent's. -/
def quota (own parent : Nat) : Nat := if own = 0 then parent else min own parent

/-- The effective values of a node from its parent's. -/
def Eff.below (e : Eff) (p : Partition) (a : Nat) (r : Rcb) : Eff :=
  let attr := p.attrs.find? (fun x => x.1.toNat == a)
  { prio := if r.getLsbD 268 then e.prio else fieldAt r 267 264
    clq := quota (fieldAt r 277 272) e.clq
    regq := quota (fieldAt r 287 280) e.regq
    scrq := quota (fieldAt r 296 288) e.scrq
    podb := orInherit 255 (fieldAt r 311 304) e.podb
    bint := orInherit 0 (fieldAt r 335 320) e.bint
    asel := orInherit 0 (fieldAt r 383 368) e.asel
    priv := e.priv || (attr.any (fun x => x.2.1) && p.grantPriv)
    test := e.test || (attr.any (fun x => x.2.2) && p.grantTest && p.tdi == .unlocked) }

/-- The effective values along a path of nodes and RCBs, the root last: each node with its own. -/
def effAlong (p : Partition) : List (Nat × Rcb) → List (Nat × Eff)
  | [] => []
  | (a, r) :: up =>
    match effAlong p up with
    | [] => [(a, p.rootEff.below p a r)]
    | (b, e) :: rest => (a, e.below p a r) :: (b, e) :: rest

/-! ## Queues (R322) -/

/-- HEAD of a node's queue. -/
def State.qhead (s : State) (part : Nat) (r : Rcb) : Nat := s.physNat part r.qbase 4
/-- TAIL of a node's queue. -/
def State.qtail (s : State) (part : Nat) (r : Rcb) : Nat := s.physNat part (r.qbase + 4) 4

/-- Pending records up to a TAIL. -/
def State.pending (s : State) (part : Nat) (r : Rcb) (tail : Nat) : Nat := (tail + 2 ^ 32 - s.qhead part r) % 2 ^ 32

/-- The record at the head of a queue. -/
def State.headRecord (s : State) (part : Nat) (r : Rcb) : BitVec 512 :=
  BitVec.ofNat 512 (s.physNat part (r.qbase + 64 + 64 * (s.qhead part r % 2 ^ r.qlog)) 64)

/-- HEAD advanced past one record. -/
def State.takeHead (s : State) (part : Nat) (r : Rcb) : State := s.physWrite part r.qbase (bytesOf 4 (s.qhead part r + 1))

end Sys2Proof.Machine
end

