-- ==== Sys2Proof/Machine/Place.lean ====
section
/-! DEFINITION. Code images, what fits where, and placing work-groups (R11, R232–R237, R254, R323, R329, R330, R339, R340,
R403–R405, R410, R436). -/

namespace Sys2Proof.Machine

/-! ## Reading in an address space -/

/-- Where an address of an address space lies for a need, if it is mapped and granted. -/
def State.vaTarget (s : State) (part asid : Nat) (need : Need) (va : Nat) : Option Target :=
  match s.walk part asid va with
  | .ok l => s.granted part l need 0 va
  | .error _ => none

/-- Bytes of an address space that can be read and are correct. -/
def State.vaBytes (s : State) (part asid va n : Nat) : Option (List Byte) :=
  (List.range n).mapM (fun i =>
    (s.vaTarget part asid .read (va + i)).bind (fun t =>
      match s.readAt part t 1 with
      | (_, [b], false) => some b
      | _ => none))

/-- Every page that holds a byte of a range grants the needs. -/
def State.vaPages (s : State) (part asid va n : Nat) (needs : List Need) : Bool :=
  n == 0 || (List.range ((va + n - 1) / 65536 + 1 - va / 65536)).all (fun i =>
    needs.all (fun need => (s.vaTarget part asid need ((va / 65536 + i) * 65536)).isSome))

/-! ## Image headers (R403, R404) -/

/-- The role words of a header. -/
def hdrRole (h : BitVec 1024) (r : Nat) : Nat := fieldAt h (383 + 64 * r) (320 + 64 * r)

/-- A role word breaks R403 or R404. -/
def roleBad (word codeLen leg : Nat) : Bool :=
  word != 0 &&
  (bits word 31 22 != 0 || bits word 15 5 != 0 || bits word 4 0 == 0 || decide (16 < bits word 4 0) || bits word 21 16 == 0 ||
   decide (32 < bits word 21 16) || bits word 63 32 % 8 != 0 || decide (codeLen ≤ bits word 63 32) ||
   (leg == 2 && decide (8 < bits word 21 16)))

/-- Two byte ranges meet. -/
def overlap (a n b m : Nat) : Bool := decide (a < b + m) && decide (b < a + n) && n != 0 && m != 0

/-- The header fails a check of R404, its pages apart. -/
def hdrBad (h : BitVec 1024) (legacy : BitVec 2) : Bool :=
  let codeOff := fieldAt h 95 64
  let codeLen := fieldAt h 127 96
  let dataOff := fieldAt h 159 128
  let dataLen := fieldAt h 191 160
  let leg := fieldAt h 41 40
  let scr := fieldAt h 287 256
  let hnd := fieldAt h 223 192
  fieldAt h 31 0 != 0x4B37415A || fieldAt h 39 32 != 1 || fieldAt h 63 48 != 0 || fieldAt h 319 288 != 0 || fieldAt h 1023 576 != 0 ||
  fieldAt h 46 44 == 7 || leg == 3 || (leg == 1 && !legacy.getLsbD 0) || (leg == 2 && !legacy.getLsbD 1) ||
  codeOff % 256 != 0 || decide (codeOff < 256) || codeLen == 0 || codeLen % 8 != 0 || dataOff % 64 != 0 ||
  overlap dataOff dataLen 0 128 || overlap dataOff dataLen codeOff codeLen || decide (2 ^ 32 < dataOff + dataLen) ||
  scr % 256 != 0 || decide (262144 < scr) || hnd % 8 != 0 || (if h.getLsbD 47 then decide (codeLen ≤ hnd) else hnd != 0) ||
  (h.getLsbD 43 && fieldAt h 46 44 != 0) || hdrRole h 0 == 0 ||
  (List.range 4).any (fun r => roleBad (hdrRole h r) codeLen leg) ||
  decide (16 < ((List.range 4).map (fun r => bits (hdrRole h r) 4 0)).sum)

/-- The image a header describes. -/
def imageOf (base : Addr) (h : BitVec 1024) : Image :=
  { base := base
    codeOff := fieldAt h 95 64
    codeLen := fieldAt h 127 96
    roles := (List.range 4).map (fun r => (bits (hdrRole h r) 63 32, 8 * bits (hdrRole h r) 21 16, bits (hdrRole h r) 4 0))
    scratch := fieldAt h 287 256
    argLen := fieldAt h 255 224
    handler := if h.getLsbD 47 then some (fieldAt h 223 192) else none
    clusterN := fieldAt h 46 44
    persistent := h.getLsbD 43
    matrix := h.getLsbD 42
    mode := fieldAt h 41 40
    dataOff := fieldAt h 159 128
    dataLen := fieldAt h 191 160 }

/-- The image of a launch that has none. -/
def Image.empty : Image := imageOf 0 0

/-- Threads of a wave of the image's mode (R410, R436). -/
def Image.lanes (i : Image) : Nat := if i.mode = 2 then 16 else 32

/-- Waves of the image's roles. -/
def Image.waveCount (i : Image) : Nat := (i.roles.map (fun r => r.2.2)).sum

/-- The image of an address space at an address, if it is valid (R404). -/
def State.readImage (s : State) (part asid : Nat) (a : Addr) : Option Image :=
  match canonical a with
  | none => none
  | some va =>
    if va % 65536 ≠ 0 then none
    else
      match s.vaBytes part asid va 128 with
      | none => none
      | some bs =>
        let h := BitVec.ofNat 1024 (leNat bs)
        if hdrBad h (s.part part).legacy then none
        else
          let i := imageOf a h
          if s.vaPages part asid (va + i.codeOff) i.codeLen [.fetch] then some i else none

/-! ## Launch records (R323) -/

/-- Fields of a launch record. -/
def recImage (r : BitVec 512) : Addr := r.extractLsb' 0 64
/-- ARGS. -/
def recArgs (r : BitVec 512) : Addr := r.extractLsb' 64 64
/-- The grid extents. -/
def recGrid (r : BitVec 512) : Nat × Nat × Nat := (fieldAt r 159 128, fieldAt r 175 160, fieldAt r 191 176)
/-- CSH in bytes. -/
def recShare (r : BitVec 512) : Nat := 1024 * fieldAt r 203 192
/-- NTHR. -/
def recThreads (r : BitVec 512) : Nat := fieldAt r 213 204
/-- DONE. -/
def recDone (r : BitVec 512) : Addr := r.extractLsb' 256 64
/-- TAG. -/
def recTag (r : BitVec 512) : Nat := fieldAt r 351 320

/-- Work-groups of the grid. -/
def recGroups (r : BitVec 512) : Nat := (recGrid r).1 * (recGrid r).2.1 * (recGrid r).2.2

/-- GSIZE (R436). -/
def gsizeOf (i : Image) (r : BitVec 512) : Nat := if recThreads r = 0 then i.lanes * i.waveCount else recThreads r

/-! ## The waves of a group (R232, R233, R237) -/

/-- Role, registers and whether it is a spawn-reserve slot, for each WAVE of a group. DESIGN CHOICE (log entry 84): the manual numbers the
waves of the roles and not the spawn-reserve slots, which come after them here, in role order. -/
def groupSlots (i : Image) (rcb : Rcb) : List (Nat × Nat × Bool) :=
  (i.roles.zipIdx.map (fun (r, k) => List.replicate r.2.2 (k, r.2.1, false))).flatten ++
  (i.roles.zipIdx.map (fun (r, k) => List.replicate (if r.2.1 = 0 then 0 else rcb.spres k) (k, r.2.1, true))).flatten

/-- Slots and wave-registers of a group on a scheduler partition. -/
def slotsOn (ws : List (Nat × Nat × Bool)) (p : Nat) : Nat × Nat :=
  let mine := (ws.zipIdx.filter (fun (_, i) => i % 4 == p)).map Prod.fst
  (mine.length, (mine.map (fun w => w.2.1)).sum)

/-- Slots and wave-registers in use on a scheduler partition of a core. -/
def State.usedOn (s : State) (c p : Nat) : Nat × Nat :=
  let mine := ((s.onCore c).map (fun g => ((g.2.waves.take g.2.waveSlots).zipIdx.filter (fun (_, i) => i % 4 == p)).map (fun w => w.1.regCount))).flatten
  (mine.length, mine.sum)

/-- Banks retired of a scheduler partition. -/
def Core.banksOut (c : Core) (p : Nat) : Nat := c.retiredBanks.countP (fun b => b / 8 == p)

/-- Wave slots and wave-registers fit the scheduler partitions, with so many in use (R233, R234). -/
def partsFit (ws : List (Nat × Nat × Bool)) (used : Nat → Nat × Nat) (out : Nat → Nat) : Bool :=
  decide (ws.length ≤ 16) && (List.range 4).all (fun p =>
    decide ((used p).1 + (slotsOn ws p).1 ≤ 16 - 2 * out p) && decide ((used p).2 + (slotsOn ws p).2 ≤ 1024 - 128 * out p))

/-! ## Storage inside a core -/

/-- The lowest start at which `n` units lie clear of those in use. -/
def firstFit (used : List (Nat × Nat)) (n : Nat) : Nat :=
  let clear (a : Nat) : Bool := used.all (fun u => !overlap a n u.1 u.2)
  ((0 :: used.map (fun u => u.1 + u.2)).filter clear).foldl min (((used.map (fun u => u.1 + u.2)).foldl max 0))

/-- Wave-registers in use or out of service on a scheduler partition. -/
def State.regRanges (s : State) (c p : Nat) : List (Nat × Nat) :=
  ((s.onCore c).map (fun g => ((g.2.waves.take g.2.waveSlots).zipIdx.filter (fun (_, i) => i % 4 == p)).map (fun w => (w.1.origin, w.1.regCount)))).flatten ++
  ((s.core c).retiredBanks.filter (fun b => b / 8 == p)).map (fun b => (b % 8 * 128, 128))

/-- The wave-register origins of a group's waves, in WAVE order (R254). -/
def State.origins (s : State) (c : Nat) (ws : List (Nat × Nat × Bool)) : List Nat :=
  (ws.zipIdx.foldl (fun (acc : List (Nat × Nat × Nat)) (w, i) =>
    let mine := (acc.filter (fun x => x.1 == i % 4)).map Prod.snd
    acc ++ [(i % 4, firstFit (s.regRanges c (i % 4) ++ mine) w.2.1, w.2.1)]) []).map (fun x => x.2.1)

/-- A group fits an empty core. -/
def fitsEmpty (i : Image) (rcb : Rcb) : Bool := partsFit (groupSlots i rcb) (fun _ => (0, 0)) (fun _ => 0)

/-- Scratchpad in use on a core. -/
def State.scratchUsed (s : State) (c : Nat) : Nat := ((s.onCore c).map (fun g => g.2.image.scratch)).sum

/-- The cluster takes work-groups: a test that is due on an idle cluster begins at once, and until it ends nothing is placed there (R419). -/
def State.clusterOpen (s : State) (k : Nat) : Bool :=
  match (s.cluster k).fieldTest with
  | .none => true
  | .due _ => s.groups.any (fun g => clusterOf g.2.core == k)
  | .run _ _ => false

/-- The core is in service for placement (R274, R415, R417, R419). -/
def State.coreOpen (s : State) (c : Nat) : Bool :=
  let k := s.core c
  !k.retired && k.bankFaults.isEmpty && s.clusterOpen (clusterOf c)

/-- A wave holds registers in a bank of its core's partition: a bank is 128 wave-registers (R234). -/
def Wave.inBank (w : Wave) (i bank : Nat) : Bool := i % 4 == bank / 8 && overlap w.origin w.regCount (bank % 8 * 128) 128

/-- A wave slot of the group holds registers in a bank; a wave that stands behind the slots holds none. -/
def Group.inBank (g : Group) (bank : Nat) : Bool := (g.waves.take g.waveSlots).zipIdx.any (fun (w, i) => w.inBank i bank)

/-- Where a group's part of a core's local scratchpad would start (R254). -/
def State.scratchAtBase (s : State) (c n : Nat) : Nat := firstFit ((s.onCore c).map (fun g => (g.2.scratchBase, g.2.image.scratch))) n

/-- The registers of every wave, and the group's scratchpad, lie in one piece inside the core's storage (R234, R254; log entry 65). -/
def State.inOnePiece (s : State) (c : Nat) (i : Image) (rcb : Rcb) : Bool :=
  let ws := groupSlots i rcb
  ((s.origins c ws).zip ws).all (fun x => decide (x.1 + x.2.2.1 ≤ 1024)) && decide (s.scratchAtBase c i.scratch + i.scratch ≤ 262144)

/-- A group of an image fits a core (R233). -/
def State.fits (s : State) (c : Nat) (i : Image) (rcb : Rcb) : Bool :=
  let k := s.core c
  s.coreOpen c && partsFit (groupSlots i rcb) (s.usedOn c) k.banksOut && s.inOnePiece c i rcb &&
  decide (s.scratchUsed c + i.scratch ≤ 262144) &&
  (!k.scratchRetired || (i.scratch == 0 && !i.matrix)) &&
  (!i.matrix || (k.owner.isNone && !k.arrayRetired && k.rowFaults.isEmpty))

/-! ## Quotas (R320, R330) -/

/-- The resident groups of a node's subtree. -/
def State.under (s : State) (part node : Nat) : List (Nat × Group) :=
  s.groups.filter (fun g => g.2.part == part && (Map.find s.launches g.2.launch).any (fun l => l.path.any (fun n => n.1 == node)))

/-- Registers of a group: 32 for each wave-register. -/
def Group.registers (g : Group) : Nat := 32 * ((g.waves.take g.waveSlots).map (fun w => w.regCount)).sum

/-- One more group of an image on a core stays within the quotas of a path. -/
def State.inQuota (s : State) (part c : Nat) (i : Image) (rcb : Rcb) (path : List (Nat × Nat × Nat × Nat)) : Bool :=
  path.all (fun (node, clq, regq, scrq) =>
    let all := s.under part node
    let here := all.filter (fun g => g.2.core == c)
    let regs := (here.map (fun g => g.2.registers)).sum + 32 * ((groupSlots i rcb).map (fun w => w.2.1)).sum
    let scr := (here.map (fun g => g.2.image.scratch)).sum + i.scratch
    let clusters := (clusterOf c :: all.map (fun g => clusterOf g.2.core)).dedup
    decide (regs ≤ 1024 * regq) && decide (scr ≤ 1024 * scrq) && decide (clusters.length ≤ clq))

/-- Save slots that groups of a node's grid hold, resident or saved (R339). -/
def State.slotsHeld (s : State) (part node : Nat) : List Nat :=
  let mine (g : Group) : Bool := g.part == part && (Map.find s.launches g.launch).any (fun l => l.node == node)
  (s.groups.filter (fun g => mine g.2)).map (fun g => g.2.slot) ++
  (s.saved.map (fun x => (x.2.groups.filter (fun g => mine g.group)).map (fun g => g.group.slot))).flatten

/-- The lowest free save slot. -/
def State.freeSlot (s : State) (part node nslot : Nat) : Option Nat :=
  (List.range nslot).find? (fun i => !(s.slotsHeld part node).contains i)

/-! ## Save-area size (R340) -/

/-- Rounded up to 4 KiB. -/
def pages4k (n : Nat) : Nat := (n + 4095) / 4096 * 4096

/-- Bytes a save slot needs. -/
def slotBytes (i : Image) (rcb : Rcb) (share : Nat) : Nat :=
  8192 + ((groupSlots i rcb).map (fun w => pages4k (36864 + 168 * w.2.1))).sum + 65536 + pages4k i.scratch +
  (if i.matrix then 952 * 1024 else 0) + 65536 + (if i.clusterN ≠ 0 ∨ i.persistent then share + 4096 else 0)

/-- Groups of a launch's gang (R329), with so many of its groups still to place. -/
def gangCount (i : Image) (left : Nat) : Nat := if i.persistent then left else if i.clusterN ≠ 0 then min i.clusterN left else 1

/-! ## Placing one group -/

/-- A wave at placement (R11, R237, R436): its role, registers, the threads it starts. -/
def waveAt (i : Image) (role regs n : Nat) (spare : Bool) (origin age uid : Nat) : Wave :=
  let lanes := Mask.below n
  let entry : Nat := (i.roles[role]?.getD (0, 0, 0)).1
  let ident : LocMap := if i.mode = 2 then Vector.ofFn (fun t => if t.val < 16 then some t else none) else LocMap.identity
  { regs := Vector.replicate 256 { Register.launch with loc := ident }
    preds := Vector.replicate 7 0
    exited := ~~~lanes
    dead := 0
    slots := #v[if n = 0 then PathSlot.empty
      else { PathSlot.empty with live := true, pc := i.code + BitVec.ofNat 64 entry, exec := lanes }, PathSlot.empty]
    stack := []
    spilled := 0
    badBlock := false
    deadsrc := false
    fpctl := 0
    frame := TrapFrame.launch
    faultMask := 0
    block := none
    halt := .running
    tag := 0
    batch := 0
    retired := 0
    faults := []
    drainFlags := []
    bars := Vector.replicate 4 Barrier.launch
    lastArrival := []
    writePtr := Vector.replicate 8 0
    uid := uid
    role := ⟨role % 4, Nat.mod_lt _ (by decide)⟩
    regCount := regs
    age := age
    spawned := spare
    z5 := i.mode == 2
    origins := []
    spawnGone := 0
    ended := n == 0
    badElems := []
    badPreds := []
    origin := origin }

/-- The array taken by a work-group: the origin rotates, tiles and planes are zero (R11–R13, R273). -/
def Core.takeArray (c : Core) (ctx : Nat) : Core :=
  { c with
    owner := some ctx
    orgR := c.orgR + 16
    orgC := c.orgC + 16
    tiles := Vector.replicate 4 Tile.zero
    active := Plane.zero
    shadow := Plane.zero }

/-- The next CTXID: every value but 0 in turn; it waits while a context that held it ended less than 1 s ago (R326). -/
def State.nextCtx (s : State) : Option Nat :=
  let c := if s.ctxCount = 0 then 1 else s.ctxCount.toNat
  if s.ctxEnded.any (fun e => e.1 == c) || (Map.find s.groups c).isSome ||
    s.saved.any (fun x => x.2.groups.any (fun g => g.ctx == c)) then none else some c

/-- Code on the control cores has taken some CTXIDs of the count; how many is not fixed (R326). -/
def State.takeControlCtx (s : State) : State := { s.draw with ctxCount := s.ctxCount + BitVec.ofNat 32 (Config.controlCtx s.fresh) }

/-- Storage that a group takes on a core holds nothing from before (R12, R254). -/
def Core.claim (c : Core) (g : Group) : Core :=
  let mine (w : Nat) : Bool := (g.waves.take g.waveSlots).zipIdx.any (fun (x, i) => i % 4 == w / 1024 && decide (x.origin ≤ w % 1024) && decide (w % 1024 < x.origin + x.regCount))
  { c with
    freeRegs := c.freeRegs.filter (fun r => !mine (r.1 / 32))
    freeScratch := c.freeScratch.filter (fun b => !(decide (g.scratchBase ≤ b.1) && decide (b.1 < g.scratchBase + g.image.scratch))) }

/-- Cached words of every line that overlaps an image's code leave the instruction cache (R405; the cache's lines are of 64 bytes, log entry 11). -/
def Core.dropCode (c : Core) (asid : BitVec 16) (i : Image) : Core :=
  { c with icache := c.icache.filter (fun x => !(x.1 == asid && overlap (x.2.1.toNat / 64 * 64) 64 i.code.toNat i.codeLen)) }

/-- Group number `num` of a launch, placed on a core as part of a gang (R330). -/
def State.placeGroup (s : State) (lid gang : Nat) (l : Launch) (c num : Nat) : Option State :=
  if !(s.fits c l.image l.rcb && s.inQuota l.part c l.image l.rcb l.path) then none
  else
    match s.nextCtx, s.freeSlot l.part l.node l.rcb.nslot with
    | some ctx, some slot =>
      let (nx, ny, nz) := recGrid l.record
      let gsize := gsizeOf l.image l.record
      let ws := groupSlots l.image l.rcb
      let orgs := s.origins c ws
      let age := (s.core c).clock.toNat
      let waves := ws.zipIdx.map (fun (w, i) =>
        waveAt l.image w.1 w.2.1 (if w.2.2 then 0 else min l.image.lanes (gsize - l.image.lanes * i)) w.2.2 (orgs[i]?.getD 0) age i)
      let w32 (n : Nat) : Word := BitVec.ofNat 32 n
      let g : Group :=
        { asid := l.asid
          part := l.part
          launch := lid
          gang := gang
          core := c
          grp := #v[w32 (num % nx), w32 (num / nx % ny), w32 (num / nx / ny)]
          ngrp := #v[w32 nx, w32 ny, w32 nz]
          gsize := gsize
          args := recArgs l.record
          savea := BitVec.ofNat 64 l.rcb.save
          slot := slot
          priv := l.priv
          test := l.test
          image := l.image
          scratchBase := s.scratchAtBase c l.image.scratch
          scratch := []
          badScratch := []
          shapes := Vector.replicate 16 0
          lscale := 0x3F800000
          ovfl := 0
          ovflNow := 0
          lscnt := 0
          bars := Vector.replicate 16 Barrier.launch
          waves := waves
          waveSlots := waves.length
          born := waves.length
          held := none
          budget := min 100 l.podb
          binInterval := l.bint
          stop := none
          serial := 0 }
      let s1 := s.modCore c (fun k =>
        let k1 := (k.claim g).dropCode l.asid l.image
        if l.image.matrix then k1.takeArray ctx else k1)
      some { s1 with
        groups := Map.insert s1.groups ctx g
        ctxCount := BitVec.ofNat 32 (ctx + 1)
        gangs := Map.modify s1.gangs gang (fun x => { x with members := x.members ++ [ctx] }) }
    | _, _ => none

/-- Groups placed each on the lowest-numbered core of a list that fits; `apart`: each on a later core than the one before. -/
def State.placeOn (s : State) (lid gang : Nat) (l : Launch) (apart : Bool) (cores : List Nat) : List Nat → Option State
  | [] => some s
  | num :: rest =>
    match cores.find? (fun c => (s.placeGroup lid gang l c num).isSome) with
    | none => none
    | some c =>
      match s.placeGroup lid gang l c num with
      | none => none
      | some s1 => s1.placeOn lid gang l apart (if apart then cores.filter (fun x => decide (c < x)) else cores) rest

/-- Where a cluster scratchpad share lies in a cluster, if it has room (R254, R323, R417). -/
def State.shareBase (s : State) (k n : Nat) : Option Nat :=
  let used := (s.gangs.filter (fun g => g.2.cluster == some k)).map (fun g => (g.2.shareBase, g.2.share))
  let a := firstFit used n
  if n = 0 then some 0
  else if (s.cluster k).scratchRetired || decide (3145728 < a + n) || decide (3145728 < (used.map Prod.snd).sum + n) then none else some a

/-- A share that a gang takes of a cluster's scratchpad holds nothing from before (R12, R254). -/
def Cluster.claim (c : Cluster) (base n : Nat) : Cluster :=
  { c with freeScratch := c.freeScratch.filter (fun b => !(decide (base ≤ b.1) && decide (b.1 < base + n))) }

/-- A new gang of a launch with its groups placed, not ready yet (R329, R330). -/
def State.placeGang (s : State) (lid : Nat) (l : Launch) : Option State :=
  let n := gangCount l.image (l.total - l.placed)
  let id := s.nextId
  let nums := (List.range n).map (fun i => l.placed + i)
  let cores := (s.part l.part).coreList
  let gang (cluster : Option Nat) (share base : Nat) : Gang :=
    ⟨lid, [], l.placed, n, false, cluster, share, base, [], [], Vector.replicate 8 Barrier.launch, Vector.replicate 4 Barrier.launch⟩
  let start (g : Gang) : State :=
    let s1 := s.takeId
    { s1 with
      gangs := Map.insert s1.gangs id g
      launches := Map.modify s1.launches lid (fun l => { l with placed := l.placed + n }) }
  if l.image.clusterN ≠ 0 then
    (s.part l.part).clusterList.findSome? (fun k =>
      match s.shareBase k (recShare l.record) with
      | none => none
      | some base =>
        ((start (gang (some k) (recShare l.record) base)).modCluster k (fun c => c.claim base (recShare l.record))).placeOn lid id l true (cores.filter (fun c => clusterOf c == k)) nums)
  else (start (gang none 0 0)).placeOn lid id l false cores nums

end Sys2Proof.Machine
end

