-- ==== Sys2Proof/Machine/LayTable.lean ====
section
/-! DEFINITION. The lay tables of a core's scheduler partitions (R36, R37, R249, R250, R341). -/

namespace Sys2Proof.Machine

/-- The lays that hold an entry of the table for some registers: those of registers that are not their own base with the identity
entries. -/
def Wave.laysOf (w : Wave) (rs : List Nat) : List LocMap := ((rs.filter (fun r => !w.isIdentity r)).map (fun r => (w.reg r).loc)).dedup

/-- Entries used: each to the front of the table. -/
def useLays (table : List LocMap) (ls : List LocMap) : List LocMap := ls.foldl (fun t l => l :: t.filter (fun x => x != l)) table

/-- The registers of a wave that use an entry, in register order. -/
def Wave.carrying (w : Wave) (l : LocMap) : List Nat := (List.range w.regCount).filter (fun r => !w.isIdentity r && (w.reg r).loc == l)

/-- The waves of a scheduler partition of a core. -/
def State.wavesOn (s : State) (c p : Nat) : List (Nat × Nat × Wave) :=
  (s.onCore c).flatMap (fun g => ((g.2.waves.take g.2.waveSlots).zipIdx.filter (fun x => x.2 % 4 == p)).map (fun x => (g.1, x.2, x.1)))

/-- The entries in use of a partition's table, most recently used first; an entry that no register uses is free (R36). -/
def State.layEntries (s : State) (c p : Nat) : List LocMap :=
  (vget (s.core c).layTables p []).filter (fun l => (s.wavesOn c p).any (fun x => !(x.2.2.carrying l).isEmpty))

/-- The table of a partition replaced. -/
def State.putLays (s : State) (c p : Nat) (t : List LocMap) : State := s.modCore c (fun k => { k with layTables := vmod k.layTables p (fun _ => t) })

/-- Every register of a partition that uses an entry is materialised, and the entry is free. -/
def State.evictLay (s : State) (c p : Nat) (l : LocMap) : State :=
  let one (g : Nat × Group) : Nat × Group :=
    if g.2.core = c then
      (g.1, { g.2 with waves := g.2.waves.zipIdx.map (fun (w, i) => if i % 4 = p ∧ i < g.2.waveSlots then (w.carrying l).foldl Wave.materialise w else w) })
    else g
  State.putLays { s with groups := s.groups.map one } c p ((s.layEntries c p).filter (fun x => x != l))

/-- Entries beyond the table's 64 are evicted, least recently used first, at most `fuel` of them (R37). -/
def State.trimLays (s : State) (c p : Nat) : Nat → State
  | 0 => s
  | fuel + 1 =>
    if (s.layEntries c p).length ≤ Config.layTableEntries then s
    else
      match (s.layEntries c p).getLast? with
      | none => s
      | some l => (s.evictLay c p l).trimLays c p fuel

/-- The lays of a wave enter its partition's table, in register order. -/
def State.takeLays (s : State) (c wv : Nat) (w : Wave) : State :=
  let p := wv % 4
  (s.putLays c p (useLays (s.layEntries c p) (w.laysOf (List.range w.regCount)))).trimLays c p 256

/-- The lay table is rebuilt for a resumed group, wave by wave (R341, R344). -/
def State.rebuildLays (s : State) (ctx : Nat) : State :=
  match Map.find s.groups ctx with
  | none => s
  | some g => (g.waves.take g.waveSlots).zipIdx.foldl (fun s (w, i) => s.takeLays g.core i w) s

end Sys2Proof.Machine
end

