-- ==== Sys2Proof/Machine/SaveArea.lean ====
section
/-! DEFINITION. The save area: the regions of a slot, what a save writes and a resume reads there, reconvergence blocks and spilled
entries (R239–R241, R337, R339–R341, R344; log entry 24). -/

namespace Sys2Proof.Machine

/-! ## Places in a slot (R239, R240, R339, R340) -/

/-- The first byte of a group's save slot. -/
def State.slotBase (s : State) (g : Group) : Nat :=
  g.savea.toNat + g.slot * (((Map.find s.launches g.launch).map (fun l => l.rcb.slotsz)).getD 0 * 4096)

/-- Bytes of a wave's section. -/
def sectionBytes (regs : Nat) : Nat := pages4k (36864 + 168 * regs)

/-- Where a wave's section starts: its registers, its lays, 4 KiB that end with its block, its spill region. -/
def Group.sectionAt (g : Group) (wv : Nat) : Nat := 8192 + ((g.waves.take wv).map (fun w => sectionBytes w.regCount)).sum

/-- Where a wave's 256-byte reconvergence block lies: before its spill region. -/
def Group.blockAt (g : Group) (wv : Nat) : Nat := g.sectionAt wv + 168 * ((g.waves[wv]?).map (fun w => w.regCount)).getD 0 + 3840

/-- Where the operand log starts. -/
def Group.logAt (g : Group) : Nat := g.sectionAt g.waveSlots

/-- Where the local scratchpad starts. -/
def Group.scratchAt_ (g : Group) : Nat := g.logAt + 65536

/-- Where the cluster scratchpad share starts: after 4 KiB of barrier state of the gang region. -/
def Group.shareAt (g : Group) : Nat := g.scratchAt_ + pages4k g.image.scratch + (if g.image.matrix then 952 * 1024 else 0) + 65536 + 4096

/-- Bytes of the slot, with a gang region or without one. -/
def Group.slotLen (g : Group) (share : Option Nat) : Nat :=
  match share with
  | none => g.shareAt - 4096
  | some n => g.shareAt + n

/-! ## Bytes -/

/-- Bytes whose values the manual leaves to the device: free values. -/
def freeBytesAt (draw off n : Nat) : List (Option Byte) := (List.range n).map (fun i => some (Config.freeByte draw (off + i)))

/-- A region as long as it has to be; its last bytes stay as they are. -/
def padTo (n : Nat) (bs : List (Option Byte)) : List (Option Byte) := bs ++ List.replicate (n - bs.length) none

/-- A register's place in its base's list of borrowers, from 1; 0 for one that borrows nothing (R341). -/
def Wave.place (w : Wave) (r : Nat) : Nat :=
  match (w.reg r).base with
  | none => 0
  | some b => (((w.reg b).borrowers.findIdx? (fun x => x == r)).map (fun i => i + 1)).getD 0

/-- The 40 bytes of a lay: base, place, entries, reserved (R341). -/
def Wave.layBytes (w : Wave) (r : Nat) : List Nat :=
  (((w.reg r).base).getD r :: w.place r :: (w.reg r).loc.toList.map (fun e => (e.map (fun t => t.val)).getD 0x80)) ++ List.replicate 6 0

/-- Registers and lays of a wave (R340, R341). -/
def Wave.image (w : Wave) : List (Option Byte) :=
  (((List.range w.regCount).flatMap (fun r => (w.reg r).elems.toList.flatMap (fun x => bytesOf 4 x.toNat))) ++
    ((List.range w.regCount).flatMap (fun r => (w.layBytes r).map (BitVec.ofNat 8)))).map some

/-- Bytes that stand for the contents of a region in the device's own form. -/
def formBytes {α : Type} (region : Nat) (x : α) (n : Nat) : List (Option Byte) := (List.range n).map (fun i => some (Config.saveByte region x i))

/-- A wave's section: registers and lays, the rest of its state, its block (R240); its spilled entries were written when they were spilled
(R239). -/
def Wave.section_ (w : Wave) (draw off : Nat) (tags : List Nat) : List (Option Byte) :=
  padTo (sectionBytes w.regCount) (w.image ++
    formBytes 1 (w.preds, w.fpctl, w.dead, w.exited, w.batch, w.retired, w.tag, tags, w.faults, w.frame, w.halt) 3840 ++
    freeBytesAt draw (off + 168 * w.regCount + 3840) 256)

/-- Bytes of the matrix region. -/
def matrixLen : Nat := 952 * 1024

/-- Bytes that hold a plane: its elements, and then what it carries. -/
def planeLen : Nat := 135168 + 16384

/-- Where a plane's bytes start in the matrix region: the active one's before the shadow one's. -/
def planeStart (shadow : Bool) : Nat :=
  let a := Config.planeAt 0 % (matrixLen - 2 * planeLen)
  if shadow then a + planeLen + Config.planeAt 1 % (matrixLen - 2 * planeLen - a) else a

/-- The elements of a plane as they are saved: T5 rows, T24S words, or effective integers with their exponents (R341). -/
def Plane.elemBytes (p : Plane) : List (Option Byte) :=
  let el (k n : Nat) : Int := Map.get p.elems (256 * k + n) 0
  if p.fmt = 0 then
    (List.range 256).flatMap (fun k => (List.range 52).map (fun j =>
      some (BitVec.ofNat 8 (t5Byte (((List.range 5).filter (fun i => decide (5 * j + i < 256))).map (fun i => el k (5 * j + i)))))))
  else if p.fmt = 1 then
    (List.range 8192).flatMap (fun b =>
      let t (i : Nat) : Int := el (4 * (b / 64) + i / 4) (4 * (b % 64) + i % 4)
      let m := (List.range 16).foldl (fun n i => n + (if t i = 0 then 0 else 2 ^ i)) 0
      match t24Masks.findIdx? (fun y => y == m) with
      | none => formBytes 4 (List.map t (List.range 16)) 2
      | some pat =>
        let signs := (List.range 16).foldl (fun n i => n + (if t i < 0 then 2 ^ maskRank m i else 0)) 0
        (bytesOf 2 (pat + 128 * signs)).map some)
  else
    (List.range 65536).flatMap (fun i => (bytesOf 2 (BitVec.ofInt 16 (el (i / 256) (i % 256))).toNat).map some) ++
    (List.range 4096).map (fun i => some (BitVec.ofNat 8 (Map.get p.exps i 0)))

/-- The digits of a plane that are zero throughout each band of 16 rows: its zero map (R276, R341). -/
def Plane.zeroMap (p : Plane) : List Bool :=
  (List.range 32).flatMap (fun b => (List.range 10).map (fun j => p.skipped (16 * b) 16 j))

/-- A plane as it is saved: its elements; its scales, row sums, zero map and format in the device's form (R341). -/
def Plane.image (p : Plane) : List (Option Byte) :=
  p.elemBytes ++ formBytes 5 (p.scales, p.rowsums, p.zeroMap, p.fmt, p.poisoned) 16384

/-- The matrix region: tiles, matrix order and drain buffers in the device's form, both planes by their format (R340, R341). -/
def Core.matrixImage (c : Core) (ctx : Nat) : List (Option Byte) :=
  let put (a : Nat) (xs ys : List (Option Byte)) : List (Option Byte) := (xs.take a ++ ys ++ xs.drop (a + ys.length)).take matrixLen
  let rest := formBytes 3 (c.tiles, c.queue.filter (fun e => e.ctx == ctx), c.buffers.map (fun b => b.filter (fun b => b.ctx == ctx))) matrixLen
  put (planeStart true) (put (planeStart false) rest c.active.image) c.shadow.image

/-- The COLLs of a context. -/
def State.collsOf (s : State) (ctx : Nat) : List Coll := (s.colls.filter (fun x => x.2.ctx == ctx)).map Prod.snd

/-- A group's slot (R340): header, wave sections, operand log, local scratchpad, matrix state, engine state. -/
def State.slotImage (s : State) (g : Group) (ctx : Nat) : List (Option Byte) :=
  let c := s.core g.core
  let ws := g.waves.take g.waveSlots
  formBytes 0 ((Map.find s.launches g.launch).map (fun l => l.record), g.grp, g.slot, ws.map (fun w => (w.role, g.core % Config.coresPerCluster)),
    g.shapes, g.lscale, g.ovfl, g.lscnt, g.bars, c.bins.filter (fun b => b.ctx == ctx)) 8192 ++
  ws.zipIdx.flatMap (fun (w, i) =>
    w.section_ s.fresh (g.sectionAt i) (((s.collsOf ctx).filter (fun x => x.wave == i)).map (fun x => x.tag))) ++
  padTo 65536 ((c.log.filter (fun e => e.2.ctx == ctx)).flatMap (fun e => formBytes 2 e.2 1024)) ++
  padTo (pages4k g.image.scratch) ((List.range g.image.scratch).map (fun i => some (Map.get g.scratch i 0))) ++
  (if g.image.matrix then c.matrixImage ctx else []) ++
  formBytes 6 (c.copies.filter (fun x => x.ctx == ctx), s.collsOf ctx, (s.remote.filter (fun o => o.2.ctx == ctx)).map Prod.snd) 65536

/-- The gang region: barrier state in the device's form, and the cluster scratchpad share. -/
def Gang.image (x : Gang) : List (Option Byte) :=
  formBytes 7 (x.clusterBars, x.gridBars) 4096 ++ (List.range x.share).map (fun i => some (Map.get x.scratch i 0))

/-! ## Writing and reading a slot -/

/-- A target as the device itself writes and reads a save slot: under the partition's own key (R339, R369). -/
def State.ownKey (s : State) (part : Nat) : Target → Target
  | .dev ga _ => .dev ga (s.part part).primary.toNat
  | .host a => .host a
  | .mmio a => .mmio a
  | .peer w a => .peer w a
  | .scratch ctx off => .scratch ctx off
  | .share gang off => .share gang off

/-- Bytes of a slot's page written, a 64-byte line at a time, at most `fuel` lines. -/
def State.putLines (s : State) (part : Nat) (l : Leaf) (va : Nat) : Nat → List (Option Byte) → State
  | 0, _ => s
  | fuel + 1, bs =>
    match bs with
    | [] => s
    | b :: rest =>
      let line := (b :: rest).take 64
      let s1 := match s.granted part l .write 0 va with
        | none => s
        | some t => s.putAll part [⟨s.ownKey part t, line⟩]
      s1.putLines part l (va + 64) fuel ((b :: rest).drop 64)

/-- Bytes from an address of an address space up written, page by page, at most `fuel` pages; pages that are not mapped stay. -/
def State.putPages (s : State) (part asid va : Nat) : Nat → List (Option Byte) → State
  | 0, _ => s
  | fuel + 1, bs =>
    let n := 65536 - va % 65536
    let s1 := match s.walk part asid va with
      | .ok l => s.putLines part l va 1024 (bs.take n)
      | .error _ => s
    if bs.length ≤ n then s1 else s1.putPages part asid (va + n) fuel (bs.drop n)

/-- Bytes of a group's slot from a 64-byte line on written. -/
def State.putSlot (s : State) (g : Group) (off : Nat) (bs : List (Option Byte)) : State :=
  s.putPages g.part g.asid.toNat ((s.slotBase g + off) % 2 ^ 57) (bs.length / 65536 + 2) bs

/-- Bytes of a group's slot, each with whether it is uncorrectable. -/
def State.slotRead (s : State) (g : Group) (off n : Nat) : Array (Byte × Bool) :=
  ((List.range ((n + 63) / 64)).flatMap (fun i =>
    match s.vaTarget g.part g.asid.toNat .read ((s.slotBase g + off + 64 * i) % 2 ^ 57) with
    | none => List.replicate 64 (0, true)
    | some t =>
      let r := s.readAt g.part (s.ownKey g.part t) 64
      r.2.1.map (fun b => (b, r.2.2)))).toArray

/-- The slot's pages are mapped read-write (R325). -/
def State.slotMapped (s : State) (g : Group) (share : Option Nat) : Bool :=
  s.vaPages g.part g.asid.toNat (s.slotBase g % 2 ^ 57) (g.slotLen share) [.read, .write]

/-! ## Blocks and spilled entries (R239, R240) -/

/-- Blocks that a trap has formed are written to the save area. -/
def State.formBlock (s : State) (ctx : Nat) (g : Group) (wv : Nat) : State :=
  (((s.putSlot g (g.blockAt wv) (freeBytesAt s.fresh (g.blockAt wv) 256)).modWave ctx wv (fun w =>
    { w with block := w.block.map (fun b => { b with draw := some s.fresh }) }))).draw

/-- A wave in its handler, or stopped, has a block that does not stand in the save area yet. -/
def Wave.unwritten (w : Wave) : Bool :=
  w.block.any (fun b => b.draw.isNone) &&
  (match w.halt with
   | .handler | .stopped | .debug _ _ => true
   | .running | .coming | .skid _ _ | .trapped _ _ => false)

/-- Every block that a trap, its halt or a HALT has formed is written. -/
def State.formBlocks (s : State) : State :=
  (s.groups.filter (fun g => g.2.waves.any Wave.unwritten)).foldl (fun s g =>
    (g.2.waves.zipIdx.filter (fun x => x.1.unwritten && decide (x.2 < g.2.waveSlots))).foldl (fun s x => s.formBlock g.1 g.2 x.2) s) s

/-- The block of a wave stands in the save area as it was written under a number; one that could not be written counts as unchanged. -/
def State.blockKept (s : State) (g : Group) (wv draw : Nat) : Bool :=
  let a := g.blockAt wv
  !s.vaPages g.part g.asid.toNat ((s.slotBase g + a) % 2 ^ 57) 256 [.read, .write] ||
  ((s.slotRead g a 256).toList.zipIdx.take 256).all (fun x => x.1.1 == Config.freeByte draw (a + x.2) && !x.1.2)

/-- A block read back: its check code passes if the save area has kept it. -/
def State.checkBlock (s : State) (g : Group) (wv : Nat) (b : Block) : Block :=
  { b with intact := b.intact && b.draw.all (fun d => decide (g.waveSlots ≤ wv) || s.blockKept g wv d) }

/-- The blocks of a group's waves read back. -/
def State.checkBlocks (s : State) (ctx : Nat) : State :=
  s.modGroup ctx (fun g => { g with waves := g.waves.zipIdx.map (fun (w, i) => { w with block := w.block.map (s.checkBlock g i) }) })

/-- Entries of a stack that a word has spilled are written to the wave's spill region: 32 bytes each in the device's form. -/
def State.writeSpill (s : State) (g : Group) (wv old new : Nat) : State :=
  if old < new ∧ wv < g.waveSlots then
    (s.putSlot g (g.blockAt wv + 256 + 32 * old) (freeBytesAt s.fresh (32 * old) (32 * (new - old)))).draw
  else s

/-! ## Save and restore (R337, R341, R344) -/

/-- The gang region belongs to the slot of the gang's lowest group, where there is one (R340). -/
def Gang.region (x : Gang) (g : Group) (ctx : Nat) : Option Nat :=
  if (g.image.clusterN ≠ 0 ∨ g.image.persistent) ∧ x.members.head? = some ctx then some x.share else none

/-- A stopped group's slot is written (R337, R340). -/
def State.writeSlot (s : State) (x : Gang) (ctx : Nat) (g : Group) : State :=
  let c := s.core g.core
  let s1 := s.putSlot g 0 (s.slotImage g ctx)
  let s2 := match x.region g ctx with
    | none => s1
    | some _ => s1.putSlot g (g.shareAt - 4096) x.image
  (s2.modGroup ctx (fun g => { g with
    stop := g.stop.map (fun p => { p with saved := some (c.clock.toNat, s.fresh) })
    waves := g.waves.map (fun w => { w with block := w.block.map (fun b => { b with draw := some s.fresh }) }) })).draw

/-- A register as the slot holds it: its elements, and its lay; tags are not saved (R341). -/
def Wave.readReg (w : Wave) (a : Array (Byte × Bool)) (r : Nat) : Register :=
  let byte (i : Nat) : Nat := ((a[i]?).map (fun x => x.1.toNat)).getD 0
  let lay (q i : Nat) : Nat := byte (128 * w.regCount + 40 * q + i)
  { elems := Vector.ofFn (fun t => BitVec.ofNat 32 (leNat ((List.range 4).map (fun j => BitVec.ofNat 8 (byte (128 * r + 4 * t.val + j))))))
    base := if lay r 0 = r then none else some (lay r 0)
    loc := Vector.ofFn (fun t => if h : lay r (2 + t.val) < 32 then some ⟨lay r (2 + t.val), h⟩ else none)
    borrowers := (List.range 8).filterMap (fun i => (List.range w.regCount).find? (fun q => lay q 0 == r && q != r && lay q 1 == i + 1))
    tag := .none }

/-- Elements of a wave whose bytes in the slot are uncorrectable (R303). -/
def Wave.readBad (w : Wave) (a : Array (Byte × Bool)) : List (Nat × Nat) :=
  (List.range (32 * w.regCount)).filterMap (fun i =>
    if (List.range 4).any (fun j => ((a[4 * i + j]?).map Prod.snd).getD false) then some (i / 32, i % 32) else none)

/-- The lays of a wave are such as R30 and R32 allow. -/
def Wave.laysFit (w : Wave) : Bool :=
  (List.range 256).all (fun r =>
    ((w.reg r).base).all (fun b => decide (b < 256) && b != r && (w.reg b).base.isNone && (w.reg b).borrowers.contains r) &&
    decide ((w.reg r).borrowers.length ≤ 7) && decide (w.reg r).borrowers.Nodup &&
    (w.reg r).borrowers.all (fun q => (w.reg q).base == some r))

/-- A wave restored from its section; lays that R30 and R32 do not allow are not taken, and the saved ones stay (log entry 24); a block whose check code fails is known (R240, R344). -/
def State.readWave (s : State) (g : Group) (draw wv : Nat) (w : Wave) : Wave :=
  let a := s.slotRead g (g.sectionAt wv) (168 * w.regCount)
  let regs := Vector.ofFn (fun (r : Fin 256) => if r.val < w.regCount then w.readReg a r.val else { w.reg r.val with tag := .none })
  let kept := Vector.ofFn (fun (r : Fin 256) => { w.reg r.val with elems := (vget regs r.val Register.launch).elems, tag := .none })
  { w with
    regs := if Wave.laysFit { w with regs := regs } then regs else kept
    badElems := (w.badElems ++ w.readBad a).dedup
    badBlock := w.badBlock || !s.blockKept g wv draw }

/-- Scratch bytes as a slot holds them, and the words of them that are uncorrectable. -/
def readScratch (a : Array (Byte × Bool)) (n : Nat) : List (Nat × Byte) × List Nat :=
  ((a.toList.take n).zipIdx.filterMap (fun (x, i) => if x.1 = 0 then none else some (i, x.1)),
   (((a.toList.take n).zipIdx.filterMap (fun (x, i) => if x.2 then some (i / 4) else none))).dedup)

/-- Rows of bytes of a slot, from one on. -/
def slotRows (a : Array (Byte × Bool)) (rows width : Nat) : List (List (Byte × Bool)) :=
  (List.range rows).map (fun r => (List.range width).map (fun j => (a[r * width + j]?).getD (0, true)))

/-- The columns of a plane whose saved bytes are uncorrectable. -/
def badColumns (bf : Nat) (rows : List (List (Byte × Bool))) : List Nat :=
  (rows.zipIdx.flatMap (fun (r, i) => r.zipIdx.flatMap (fun (b, j) => if b.2 then imageCols bf false i j else []))).dedup

/-- A plane with the elements that the slot holds; ternary codes that are illegal are not taken, and the saved ones stay (log entry 24). -/
def Plane.restored (p : Plane) (a : Array (Byte × Bool)) : Plane :=
  let ternary (bf rows width nk : Nat) : Plane :=
    let rs := slotRows a rows width
    if (imageBad bf rs).isEmpty then
      { p with
        elems := (planeOf bf false nk 256 (rs.map (fun r => r.map Prod.fst)) [] []).elems
        poisoned := (p.poisoned ++ badColumns bf rs).dedup }
    else p
  if p.fmt = 0 then ternary 0 256 52 256
  else if p.fmt = 1 then ternary 1 128 128 512
  else
    let byte (i : Nat) : Nat := ((a[i]?).map (fun x => x.1.toNat)).getD 0
    let bad (i : Nat) : Bool := ((a[i]?).map Prod.snd).getD true
    { p with
      elems := listed 65536 0 (fun i => (BitVec.ofNat 16 (byte (2 * i) + 256 * byte (2 * i + 1))).toInt)
      exps := listed 4096 0 (fun i => byte (131072 + i))
      poisoned := (p.poisoned ++ ((List.range 65536).filter (fun i => bad (2 * i) || bad (2 * i + 1))).map (fun i => i % 256) ++
        ((List.range 4096).filter (fun i => bad (131072 + i))).map (fun i => i % 256)).dedup }

/-- A plane of a saved group as its slot gives it back (R341, R344). -/
def State.readSavedPlane (s : State) (g : Group) (shadow : Bool) (p : Plane) : Plane :=
  if g.image.matrix then p.restored (s.slotRead g (g.scratchAt_ + pages4k g.image.scratch + planeStart shadow / 64 * 64) 135232 |>.extract (planeStart shadow % 64) 135232)
  else p

/-- A saved group as its slot gives it back (R344). -/
def State.readGroup (s : State) (g : Group) (draw : Nat) : Group :=
  let sc := readScratch (s.slotRead g g.scratchAt_ g.image.scratch) g.image.scratch
  { g with
    waves := g.waves.zipIdx.map (fun (w, i) => if i < g.waveSlots then s.readWave g draw i w else w)
    scratch := sc.1
    badScratch := sc.2.foldl (fun l x => insertNat x l) g.badScratch }

/-- A saved gang's share as the slot of its lowest group gives it back. -/
def State.readShare (s : State) (x : Gang) (g : Group) : Gang :=
  let sc := readScratch (s.slotRead g g.shareAt x.share) x.share
  { x with scratch := sc.1, badScratch := sc.2.foldl (fun l x => insertNat x l) x.badScratch }

end Sys2Proof.Machine
end

