-- ==== Sys2Proof/Machine/Launches.lean ====
section
/-! DEFINITION. Launches from their records to their completion words, graphs and fault domains (R321–R334). -/

namespace Sys2Proof.Machine

/-- The distributor of a partition has something to decide (R328). -/
def State.wake (s : State) (part : Nat) : State := s.modPart part (fun p => { p with idle := false })

/-! ## Starting a launch (R325, R326) -/

/-- The launch of a node, before its checks: the node and its ancestors with their RCBs, the root last. -/
def State.newLaunch (s : State) (part : Nat) (up : List (Nat × Rcb)) (record : BitVec 512) (visible : Nat) : Launch :=
  let effs := effAlong (s.part part) up
  let e := ((effs.head?).map Prod.snd).getD (s.part part).rootEff
  { part := part
    node := ((up.head?).map Prod.fst).getD 0
    rcb := ((up.head?).map Prod.snd).getD 0
    record := record
    image := Image.empty
    asid := BitVec.ofNat 16 (e.asel - 1)
    path := effs.map (fun (a, e) => (a, e.clq, e.regq, e.scrq))
    prio := e.prio
    podb := e.podb
    bint := e.bint
    priv := e.priv
    test := e.test
    visible := visible
    aged := min 15 ((s.now - visible) / 4000000)
    placed := 0
    total := 0
    ended := 0
    verdict := none
    closed := false
    token := none
    parent := none
    children := []
    started := []
    results := [] }

/-- The launch's ASID lies in its partition's range, and its descriptor is active (R346). -/
def State.asidActive (s : State) (part asid : Nat) : Bool :=
  let p := s.part part
  decide (p.asidFirst ≤ asid) && decide (asid < p.asidFirst + p.asidCount) && decide (asid < 1024) &&
  s.inSpace part (s.asd part asid) 64 && (s.physNat part (s.asd part asid) 1).testBit 0

/-- Most groups of a persistent grid that are resident at once within its quotas. -/
def coResident (i : Image) (rcb : Rcb) (clusters clq regq scrq : Nat) : Nat :=
  let ws := groupSlots i rcb
  let regs := 32 * (ws.map (fun w => w.2.1)).sum
  let ok (k : Nat) : Bool := (List.range 4).all (fun p => decide (k * (slotsOn ws p).1 ≤ 16) && decide (k * (slotsOn ws p).2 ≤ 1024)) &&
    decide (k * i.scratch ≤ 262144) && decide (k * regs ≤ 1024 * regq) && decide (k * i.scratch ≤ 1024 * scrq) && (!i.matrix || decide (k ≤ 1))
  ((List.range 17).filter ok).foldl max 0 * Config.coresPerCluster * min clusters clq

/-- A launch runs a graph, or a plain node that is a child of one: its children are started (R333). -/
def Launch.isGraph (l : Launch) : Bool := l.rcb.kind == 2 || (l.rcb.kind == 1 && l.parent.isSome)

/-- A record's reserved fields (R323, R325). -/
def recordBad (r : BitVec 512) : Bool :=
  fieldAt r 511 352 != 0 || fieldAt r 255 214 != 0

/-- The checks of a grid's launch after that of its ASID, in order: the image, or the CAUSE (R325). -/
def State.checkGrid (s : State) (l : Launch) : Except Nat Image :=
  let r := l.record
  let asid := l.asid.toNat
  let (clq, regq, scrq) := ((l.path.head?).map (fun n => n.2)).getD (0, 0, 0)
  if recordBad r || recGroups r == 0 then .error 0x84
  else
    match s.readImage l.part asid (recImage r) with
    | none => .error 0x81
    | some i =>
      let gang := gangCount i (recGroups r)
      let save := l.rcb.nslot * (l.rcb.slotsz * 4096)
      if i.lanes * i.waveCount < recThreads r then .error 0x84
      else if !fitsEmpty i l.rcb || (i.persistent && decide (coResident i l.rcb (s.part l.part).clusterList.length clq regq scrq < recGroups r)) ||
        (i.clusterN != 0 && decide (3145728 < recShare r)) then .error 0x82
      else if decide (l.rcb.nslot < max 1 gang) || decide (l.rcb.slotsz * 4096 < slotBytes i l.rcb (recShare r)) ||
        (canonical (BitVec.ofNat 64 l.rcb.save)).isNone ||
        !s.vaPages l.part asid (l.rcb.save % 2 ^ 57) save [.read, .write] then .error 0x83
      else if decide (i.argLen < 8) || (recArgs r).toNat % 8 != 0 || (canonical (recArgs r)).isNone ||
        !s.vaPages l.part asid ((recArgs r).toNat % 2 ^ 57) i.argLen [.read] then .error 0x84
      else .ok i

/-- The nodes below a graph with their RCBs and templates, in order (R333). -/
def State.snapshot (s : State) (part a : Nat) : List (Nat × Rcb × BitVec 512) :=
  ((s.subtree part 8 a).drop 1).map (fun x => (x, s.rcb part x, BitVec.ofNat 512 (s.physNat part (s.rcb part x).tmpl 64)))

/-- A launch that has been checked becomes an instance, or a rejected one that is to complete (R325). DESIGN CHOICE (log entry 87): a graph
launch whose IMAGE is not 0 (R323), which R325's table does not list, is rejected with CAUSE 0x84. -/
def State.enrol (s : State) (l : Launch) : State :=
  let add (l : Launch) : State := { s.takeId with launches := Map.insert s.launches s.nextId l }
  let reject (cause : Nat) : State := add { l with verdict := some (4, cause), closed := true }
  if !s.asidActive l.part l.asid.toNat then
    let s1 := (s.countLaunch l.part l.node).stopNode l.part l.node 0x88
    match l.parent with
    | none => s1
    | some (g, i) => { s1 with launches := Map.modify s1.launches g (fun x => { x with results := x.results ++ [(i, 4, 0x88)] }) }
  else if l.isGraph then
    if l.parent.isNone && (recordBad l.record || recGroups l.record == 0 || recImage l.record != 0) then reject 0x84
    else
      let snap := if l.children.isEmpty then s.snapshot l.part l.node else l.children
      (add { l with children := snap }).setNode l.part l.node 1 0
  else
    match s.checkGrid l with
    | .error cause => reject cause
    | .ok i => (add { l with image := i, total := recGroups l.record }).setNode l.part l.node 1 0

/-- The record at the head of a node's queue starts its launch (R322, R325, R332). -/
def State.startRecord (s : State) (part a visible : Nat) : State :=
  match s.path part a with
  | none => s
  | some up =>
    let r := s.rcb part a
    let l := s.newLaunch part (up.map (fun x => (x, s.rcb part x))) (s.headRecord part r) visible
    (s.takeHead part r).enrol l

/-! ## What starts at a decision point (R321, R322, R324, R332) -/

/-- A doorbell that the distributor takes: breaks stop their nodes, an overfull queue stops its own. -/
def State.takeBell (s : State) (part : Nat) (bell : Nat × Nat) : State :=
  match s.path part bell.1 with
  | none => s
  | some up =>
    let s1 := s.readNodes part up
    if up.any (fun a => s1.broken part a) then s1
    else
      let r := s1.rcb part bell.1
      if r.qlog = 0 then s1
      else if 2 ^ r.qlog < s1.pending part r (s1.qtail part r) then s1.stopNode part bell.1 0x87
      else s1.modPart part (fun p => { p with visible := p.visible ++ [(bell.1, s1.qtail part r, bell.2)] })

/-- Every doorbell taken. -/
def State.takeBells (s : State) (part : Nat) : State :=
  ((s.part part).bells.foldl (fun s b => s.takeBell part b) s).modPart part (fun p => { p with bells := [] })

/-- Running launches of a node, from its queue or as a child of a graph. -/
def State.running (s : State) (part a : Nat) : List (Nat × Launch) :=
  s.launches.filter (fun l => l.2.part == part && l.2.node == a)

/-- The launches of a node that run let its next one start (R332). -/
def State.nodeFree (s : State) (part a : Nat) (r : Rcb) : Bool :=
  (s.running part a).all (fun l => r.ovl && (r.kind != 0 || l.2.closed || l.2.placed == l.2.total))

/-- The nodes that a launch of a node reads: its path, and of a graph all below it (R318, R333). -/
def State.readBy (s : State) (part a : Nat) : List Nat :=
  ((s.path part a).getD []) ++ (if (s.rcb part a).kind = 2 then (s.subtree part 8 a).drop 1 else [])

/-- The node's next record may start: no node it reads is stopped or broken, and the previous launch of it lets it (R321, R332, R333). -/
def State.mayStart (s : State) (part a tail : Nat) : Bool :=
  let r := s.rcb part a
  (s.path part a).isSome && (s.readBy part a).all (fun x => decide ((s.rcb part x).state < 2) && !s.broken part x) &&
  s.pending part r tail != 0 && s.nodeFree part a r

/-- Records that may start do, one of each node; a TAIL that has been reached is dropped. -/
def State.startAll (s : State) (part : Nat) : State :=
  let nodes := ((s.part part).visible.map Prod.fst).dedup
  let s1 := nodes.foldl (fun s a =>
    match (s.part part).visible.find? (fun v => v.1 == a && s.pending part (s.rcb part a) v.2.1 != 0) with
    | none => s
    | some v =>
      let s1 := s.readNodes part (s.readBy part a)
      if s1.mayStart part a v.2.1 then s1.startRecord part a v.2.2 else s1) s
  s1.modPart part (fun p => { p with visible := p.visible.filter (fun v => s1.pending part (s1.rcb part v.1) v.2.1 != 0) })

/-! ## Graphs (R333) -/

/-- The direct children of a graph's node in its snapshot: place in the snapshot, address, RCB, template. -/
def Launch.kids (l : Launch) : List (Nat × Nat × Rcb × BitVec 512) :=
  (l.children.zipIdx.filter (fun (c, _) => c.2.1.parent == l.node)).map (fun (c, i) => (i, c))

/-- A child's dependencies have completed. -/
def Launch.depsDone (l : Launch) (r : Rcb) : Bool :=
  l.kids.zipIdx.all (fun (k, j) => !r.deps.testBit j || l.results.any (fun x => x.1 == k.1 && x.2.1 == 1))

/-- A child that may start. -/
def Launch.ripe (l : Launch) (k : Nat × Nat × Rcb × BitVec 512) : Bool :=
  l.verdict.isNone && !l.started.contains k.1 && l.depsDone k.2.2.1

/-- The nodes from one of a graph's snapshot up to the graph's own, that apart, at most `fuel` of them. -/
def Launch.chain (l : Launch) : Nat → Nat × Rcb → List (Nat × Rcb)
  | 0, k => [k]
  | fuel + 1, k =>
    match l.children.find? (fun c => c.1 == k.2.parent && c.1 != l.node) with
    | none => [k]
    | some c => k :: l.chain fuel (c.1, c.2.1)

/-- The launch of a node of a graph's snapshot. -/
def State.childLaunch (s : State) (lid : Nat) (l : Launch) (k : Nat × Nat × Rcb × BitVec 512) : Launch :=
  let rcbOf (a : Nat) : Rcb := match l.children.find? (fun c => c.1 == a) with
    | some c => c.2.1
    | none => if a = l.node then l.rcb else s.rcb l.part a
  let up := l.chain 8 (k.2.1, k.2.2.1) ++ l.path.map (fun n => (n.1, rcbOf n.1))
  { s.newLaunch l.part up (if k.2.2.1.kind = 0 then k.2.2.2 else 0) l.visible with
    aged := l.aged, parent := some (lid, k.1), children := if k.2.2.1.kind = 0 then [] else l.children }

/-- A child starts. -/
def State.startChild (s : State) (lid : Nat) (l : Launch) (k : Nat × Nat × Rcb × BitVec 512) : State :=
  let s1 := { s with launches := Map.modify s.launches lid (fun x => { x with started := x.started ++ [k.1] }) }
  (s1.enrol (s1.childLaunch lid l k)).wake l.part

/-- A child may start now: the earlier launches of its node let it (R332). -/
def State.childFree (s : State) (l : Launch) (k : Nat × Nat × Rcb × BitVec 512) : Bool := l.ripe k && s.nodeFree l.part k.2.1 k.2.2.1

/-- The nodes of a snapshot below one, at most `fuel` levels of them. -/
def Launch.downFrom (l : Launch) : Nat → Nat → List (Nat × Nat × Rcb × BitVec 512)
  | 0, _ => []
  | fuel + 1, a =>
    (l.children.zipIdx.filter (fun (c, _) => c.2.1.parent == a)).flatMap (fun (c, i) => (i, c) :: l.downFrom fuel c.1)

/-- The nodes below a graph that have not started and have launches of their own: they count as pending (R334). -/
def Launch.unstarted (l : Launch) : List (Nat × Nat × Rcb × BitVec 512) :=
  ((l.kids.filter (fun k => !l.started.contains k.1)).flatMap (fun k => k :: l.downFrom 8 k.2.1)).filter (fun k => k.2.2.1.kind != 1)

/-! ## Fault domains (R334) -/

/-- The nearest node at or above a launch's node that carries FDOM. -/
def State.domainOf (s : State) (l : Launch) : Option Nat :=
  (l.path.map (fun n => n.1)).find? (fun a => if a = l.node then l.rcb.fdom else (s.rcb l.part a).fdom)

/-- A launch of a domain is aborted: its groups end, its saved gangs are dropped (R334, R338). -/
def State.abortLaunch (s : State) (lid : Nat) (result cause : Nat) : State :=
  let s1 := { s with launches := Map.modify s.launches lid (fun l =>
    { l with verdict := if l.verdict.isNone then some (result, cause) else l.verdict, closed := true }) }
  let dropped := ((s1.saved.filter (fun x => x.2.gang.launch == lid)).map (fun x => x.2.groups.length)).sum
  let ctxs := ((s1.saved.filter (fun x => x.2.gang.launch == lid)).map (fun x => x.2.groups.map (fun g => g.ctx))).flatten
  let s2 := { s1 with
    saved := s1.saved.filter (fun x => x.2.gang.launch != lid)
    remote := s1.remote.filter (fun o => !ctxs.contains o.2.ctx)
    colls := s1.colls.filter (fun x => !ctxs.contains x.2.ctx)
    ctxEnded := ctxs.foldl (fun m c => Map.insert m c s.now) s1.ctxEnded
    launches := Map.modify s1.launches lid (fun l => { l with ended := l.ended + dropped }) }
  (s2.groups.filter (fun g => g.2.launch == lid)).foldl (fun s g => s.killGroup g.1 result cause) s2

/-- A pending launch completes aborted: an instance that only writes its word. -/
def State.abortPending (s : State) (l : Launch) : State :=
  if s.asidActive l.part l.asid.toNat then
    { s.takeId with launches := Map.insert s.launches s.nextId { l with verdict := some (3, 0x85), closed := true } }
  else s.countLaunch l.part l.node

/-- The pending records of a node's queue complete aborted, at most `fuel` of them. -/
def State.abortQueue (s : State) (part a : Nat) (up : List (Nat × Rcb)) : Nat → State
  | 0 => s
  | fuel + 1 =>
    let r := s.rcb part a
    if s.pending part r (s.qtail part r) = 0 then s
    else ((s.takeHead part r).abortPending (s.newLaunch part up (s.headRecord part r) s.now)).abortQueue part a up fuel

/-- A fault domain is aborted (R334). -/
def State.abortDomain (s : State) (part d : Nat) : State :=
  let mine := s.launches.filter (fun l => l.2.part == part && l.2.path.any (fun n => n.1 == d))
  let s1 := mine.foldl (fun s l =>
    let rest := if l.2.isGraph then l.2.unstarted else []
    rest.foldl (fun s k => s.abortPending { s.childLaunch l.1 l.2 k with parent := none }) (s.abortLaunch l.1 3 0x85)) s
  let s2 := (s1.subtree part 8 d).foldl (fun s a =>
    let r := s.rcb part a
    match s.path part a with
    | none => s
    | some up =>
      if r.qlog = 0 then s
      else
        (s.abortQueue part a (up.map (fun x => (x, s.rcb part x))) (2 ^ r.qlog)).modPart part (fun p =>
          { p with visible := p.visible.filter (fun v => v.1 != a) })) s1
  s2.setNode part d 3 0x85

/-! ## Completion (R327) -/

/-- RESULT and CAUSE of a launch that has come to its end. -/
def Launch.outcome (l : Launch) : Nat × Nat :=
  match l.verdict with
  | some v => v
  | none => match l.results.find? (fun x => x.2.1 != 1) with
    | some x => x.2
    | none => (1, 0)

/-- Every group that was placed has ended and no more will be; of a graph, every started child has completed and no other may start. -/
def State.atEnd (s : State) (lid : Nat) (l : Launch) : Bool :=
  if l.isGraph && l.verdict.all (fun v => v.1 != 4) then
    l.started.all (fun i => l.results.any (fun x => x.1 == i)) && !l.kids.any l.ripe
  else
    (l.closed || l.placed == l.total) && l.ended == l.placed && !s.saved.any (fun x => x.2.gang.launch == lid)

/-- A launch that a killed group has failed passes the failure to its fault domain, once its other groups have ended (R334). -/
def State.passFailure (s : State) (l : Launch) : State :=
  if l.outcome.1 = 2 ∧ l.path.all (fun (n : Nat × Nat × Nat × Nat) => (s.rcb l.part n.1).state != 3) then
    match s.domainOf l with
    | some d => s.abortDomain l.part d
    | none => s
  else s

/-- A launch leaves the list; its node, its graph and its fault domain take note. -/
def State.finish (s : State) (lid : Nat) (l : Launch) : State :=
  let s1 := { s.countLaunch l.part l.node with launches := Map.erase s.launches lid }
  let s2 := if s1.launches.any (fun x => x.2.part == l.part && x.2.node == l.node) || (s1.rcb l.part l.node).state != 1 then s1
    else s1.setNode l.part l.node 0 0
  let s3 := match l.parent with
    | none => s2
    | some (g, i) =>
      { s2 with launches := Map.modify s2.launches g (fun x => { x with results := x.results ++ [(i, l.outcome.1, l.outcome.2)] }) }
  (s3.passFailure l).wake l.part

/-- The completion word. -/
def Launch.word (l : Launch) : Nat := recTag l.record + l.outcome.1 * 2 ^ 32 + l.outcome.2 * 2 ^ 40

/-- The completion word sent to a peer, under a CTXID that code on the control cores takes; the launch waits for the reply (R326, R327, R380).
A CTXID in use makes it wait. -/
def State.sendWord (s : State) (lid : Nat) (l : Launch) (window addr : Nat) : State :=
  match s.nextCtx with
  | none => s
  | some ctx =>
    let op : RemoteOp :=
      { ctx := ctx, core := Config.cores, wave := 0, slot := 0, thread := 0, pc := 0, word := lid, off := 0, cover := some (.launch lid), coll := none,
        serial := none, window := window, addr := BitVec.ofNat 40 addr, va := recDone l.record,
        op := .store 8 (BitVec.ofNat 128 l.word) 0xFF false, epoch := 0, firstSent := 0, lastSent := 0, sends := 0, interval := 50000, status := .queued,
        telem := noElem, gen := none }
    State.startRemote { s with
      ctxCount := BitVec.ofNat 32 (ctx + 1)
      launches := Map.modify s.launches lid (fun x => { x with token := some s.nextId }) } op

/-- A launch that has come to its end writes its word and finishes; `patient`: a page fault waits for the service, and a peer for its reply.
A DONE that is no multiple of 8 is not written to (log entry 67). -/
def State.complete (s : State) (lid : Nat) (l : Launch) (patient : Bool) : State :=
  let asid := l.asid.toNat
  let va := (recDone l.record).toNat % 2 ^ 57
  let lost (s : State) : State := (s.castPart l.part { cls := 0x0A, cause := 0x8A, addr := BitVec.ofNat 64 l.node }).finish lid l
  if recDone l.record = 0 then s.finish lid l
  else if (canonical (recDone l.record)).isNone || va % 8 != 0 then lost s
  else
    match s.walk l.part asid va with
    | .error .invalid =>
      if patient && s.hasQueue l.part asid then
        let (s1, t) := s.reportFault ((s.part l.part).coreList.headD 0) l.part l.asid va .write
        { s1 with launches := Map.modify s1.launches lid (fun x => { x with token := some t }) }
      else lost s
    | .error (.poison b) => lost (s.poisonMet ((s.part l.part).coreList.headD 0) l.part l.asid b)
    | .error (.beyond a) => { s with beyond := some (l.part, a) }
    | .ok leaf =>
      match s.granted l.part leaf .write 0 va with
      | none => lost s
      | some (.peer w a) => if patient then s.sendWord lid l w a else lost s
      | some t => (s.putAll l.part [⟨t, (bytesOf 8 l.word).map some⟩]).finish lid l

/-! ## The end of a group (R305, R326) -/

/-- The context that an effect on its way out of a core belongs to. -/
def Post.ctx : Post → Nat
  | .event e => e.ctxid
  | .arrival _ _ _ _ key _ _ _ => key % 2 ^ 32
  | .gone ctx _ _ => ctx
  | .killed ctx _ _ => ctx

/-- Nothing of a context is under way any more: waves, bins, engines, requests, remote writes, effects that have not left the core, so that
no strike brings it back (R306, R307). -/
def State.quiet (s : State) (ctx : Nat) (g : Group) : Bool :=
  let c := s.core g.core
  g.waves.all (fun w => w.ended) && c.bins.all (fun b => b.ctx != ctx) && c.copies.all (fun x => x.ctx != ctx) &&
  c.queue.all (fun e => e.ctx != ctx) && c.buffers.toList.all (fun b => b.all (fun b => b.ctx != ctx)) &&
  c.reqs.all (fun e => e.2.ctx != ctx) && c.log.all (fun e => e.2.ctx != ctx) && s.colls.all (fun x => x.2.ctx != ctx) &&
  c.posts.all (fun p => p.2.ctx != ctx) && s.remote.all (fun o => o.2.ctx != ctx || !o.2.open_)

/-- The group leaves its core, and its context ends (R326). -/
def State.removeGroup (s : State) (ctx : Nat) (g : Group) : State :=
  let s1 := s.modCore g.core (fun c => { c.dropContext ctx with
    reqs := c.reqs.filter (fun e => e.2.ctx != ctx)
    buffers := c.buffers.map (fun b => b.filter (fun b => b.ctx != ctx)) })
  let gangs := Map.modify s1.gangs g.gang (fun x => { x with members := x.members.filter (fun m => m != ctx) })
  { s1 with
    groups := Map.erase s1.groups ctx
    gangs := gangs.filter (fun x => !x.2.members.isEmpty)
    launches := Map.modify s1.launches g.launch (fun l => { l with ended := l.ended + 1 })
    remote := s1.remote.filter (fun o => o.2.ctx != ctx)
    colls := s1.colls.filter (fun x => x.2.ctx != ctx)
    ctxEnded := Map.insert s1.ctxEnded ctx s.now }

/-- A group that has ended: its launch counts it (R305). -/
def State.endGroup (s : State) (ctx : Nat) (g : Group) : State := (s.removeGroup ctx g).wake g.part

/-! ## Stopping a partition (R373 step 1, R425) -/

/-- Every launch of a partition completes with RESULT 3 and CAUSE 0x89, its groups ended and nothing saved. -/
def State.stopPartition (s : State) (part : Nat) : State :=
  let mine := s.launches.filter (fun l => l.2.part == part)
  let s1 := mine.foldl (fun s l => s.abortLaunch l.1 3 0x89) s
  let s2 := (s1.groups.filter (fun g => g.2.part == part)).foldl (fun s g => s.removeGroup g.1 g.2) s1
  let s3 := mine.foldl (fun s l => match Map.find s.launches l.1 with
    | some x => s.complete l.1 { x with verdict := some (3, 0x89) } false
    | none => s) s2
  s3.modPart part (fun p => { p with bells := [], visible := [], idle := true })

end Sys2Proof.Machine
end

