-- ==== Sys2Proof/Machine/Distributor.lean ====
section
/-! DEFINITION. The distributor's decisions, pre-emption and resume, and the events of launches (R224, R273, R326–R344, R388). -/

namespace Sys2Proof.Machine

/-- An event of another agent: it takes its effect where it can occur, and otherwise nothing happens (log entry 1). -/
def State.event (s : State) (can : Bool) (f : State) : Host.Outcome State Fault Refusal := if can then f.outcome else .next s

/-! ## Saving and resuming a gang (R336–R344) -/

/-- A pre-emption's stop of a group has begun. -/
def Group.stopping (g : Group) : Bool := g.stop.any (fun x => !x.waiting)

/-- All engine classes. -/
def engineClasses : List EngineClass := [.waves, .matrix, .copy, .braid, .bins, .barriers]

/-- Every engine class of the group has acknowledged its stop. -/
def Group.stopped (g : Group) : Bool := g.stop.any (fun x => !x.waiting && engineClasses.all (fun c => x.acked.contains c))

/-- A slot of a wave that is saved: a SLEEP, and a word whose wait belongs to the core, issues again (R336). A wait at a barrier, a join or
matrix order is kept: its word, issued again, would wait for the same; a cause that it has still to raise is kept too (R360). -/
def PathSlot.saved (p : PathSlot) : PathSlot :=
  match p.wait with
  | some (.sleep _) => { p with wait := none }
  | some (.tile _) => { p with wait := none }
  | some (.bump _) => { p with wait := none }
  | some (.test _) => { p with wait := none }
  | some (.fetch _ _) => { p with wait := none }
  | some .stall => { p with wait := none }
  | some (.gaveUp _ _) => p
  | some .join => p
  | some (.barrier _ _ _ _) => p
  | some (.matrix _) => p
  | none => p

/-- A word of the slot has issued and is not complete: a GENBUMP or an STEST (R336). -/
def PathSlot.midWord (p : PathSlot) : Bool :=
  match p.wait with
  | some (.bump _) => true
  | some (.test _) => true
  | _ => false

/-- A wave as the save area holds it: tags are expanded (R341). -/
def Wave.saved (w : Wave) : Wave :=
  { w with
    regs := w.regs.map (fun r => { r with tag := .none })
    slots := w.slots.map PathSlot.saved
    block := w.block.map (fun b => { b with slots := b.slots.map PathSlot.saved }) }

/-- A TLD whose image has not been read; a stop abandons it, and it issues again (R336). -/
def MatOp.unread : MatOp → Bool
  | .tld _ _ _ _ _ _ _ => true
  | .swap | .mma _ _ _ _ _ | .mmas _ _ _ _ _ _ _ | .mmag _ _ _ _ _ _ _ _ _ _ | .aclr _ _ | .adrain _ _ _ _ _
  | .ard _ _ _ _ _ | .achk _ _ _ | .aflip _ _ _ _ => false

/-- A command, an instruction in matrix order or a drain as it is resumed: its access walks again (R344, R360). -/
def CopyCmd.afresh (c : CopyCmd) : CopyCmd := { c with token := none }
/-- The same of an instruction. -/
def MatEntry.afresh (e : MatEntry) : MatEntry := { e with token := none }
/-- The same of a drain. -/
def DrainBuf.afresh (b : DrainBuf) : DrainBuf := { b with token := none }
/-- The same of a COLL. -/
def Coll.afresh (c : Coll) : Coll := { c with token := none }

/-- A group leaves its core for the save area. -/
def State.saveGroup (s : State) (ctx : Nat) (g : Group) : State × SavedGroup :=
  let c := s.core g.core
  let mine (m : MemWord) : Bool := m.ctx == ctx
  let logical (p : Plane) : Plane := { p with idle := [] }
  let x : SavedGroup :=
    { ctx := ctx
      group := { g with waves := g.waves.map Wave.saved, stop := none }
      coreIndex := g.core % Config.coresPerCluster
      owned := c.owner == some ctx
      tiles := c.tiles
      active := logical c.active
      shadow := logical c.shadow
      queue := c.queue.filter (fun e => e.ctx == ctx && !e.op.unread)
      buffers := c.buffers.map (fun b => b.filter (fun b => b.ctx == ctx))
      log := c.log.filter (fun e => mine e.2)
      reqs := c.reqs.filter (fun e => mine e.2)
      bins := c.bins.filter (fun b => b.ctx == ctx)
      copies := c.copies.filter (fun b => b.ctx == ctx)
      draw := ((g.stop.bind (fun p => p.saved)).map Prod.snd).getD 0 }
  let s1 := s.modCore g.core (fun c => { c.dropContext ctx with
      reqs := c.reqs.filter (fun e => !mine e.2)
      buffers := c.buffers.map (fun b => b.filter (fun b => b.ctx != ctx)) })
  ({ s1.dropAsks g.core with groups := Map.erase s.groups ctx }, x)

/-- A gang is saved whole and its resources are free (R337, R339). -/
def State.saveGang (s : State) (id : Nat) (x : Gang) : State :=
  let (s1, gs) := x.members.foldl (fun (s, gs) c => match Map.find s.groups c with
    | none => (s, gs)
    | some g => let (s1, y) := s.saveGroup c g; (s1, gs ++ [y])) (s, [])
  { s1 with gangs := Map.erase s1.gangs id, saved := Map.insert s1.saved id ⟨x, gs⟩ }

/-- A saved group placed on a core, restored from its slot; it waits while the slot's pages are not mapped (R343, R344). -/
def State.resumeGroup (s : State) (gang : Nat) (l : Launch) (x : SavedGroup) (c : Nat) : Option State :=
  let i := x.group.image
  if !(s.fits c i l.rcb && s.inQuota l.part c i l.rcb l.path && s.slotMapped x.group none) then none
  else
    let orgs := s.origins c (x.group.waves.map (fun w => (w.role.val, w.regCount, false)))
    let age := (s.core c).clock.toNat
    let read := s.readGroup x.group x.draw
    let g := { read with
      core := c
      gang := gang
      waves := read.waves.zipIdx.map (fun (w, i) => { w with origin := orgs[i]?.getD 0, age := age })
      scratchBase := s.scratchAtBase c i.scratch }
    let s1 := s.modCore c (fun k =>
      let k0 := k.claim g
      let k1 := if x.owned then
        { k0.takeArray x.ctx with
          tiles := x.tiles
          active := s.readSavedPlane x.group false x.active
          shadow := s.readSavedPlane x.group true x.shadow }
        else k0
      { k1.dropCode g.asid i with
        queue := k1.queue ++ x.queue.map MatEntry.afresh
        buffers := if x.owned then x.buffers.map (fun b => b.map DrainBuf.afresh) else k1.buffers
        log := x.log.foldl (fun m e => Map.insert m e.1 e.2) k1.log
        reqs := x.reqs.foldl (fun m e => Map.insert m e.1 e.2) k1.reqs
        bins := k1.bins ++ x.bins
        copies := k1.copies ++ x.copies.map CopyCmd.afresh })
    some (State.rebuildLays { s1 with
      groups := Map.insert s1.groups x.ctx g
      gangs := Map.modify s1.gangs gang (fun y => { y with members := y.members ++ [x.ctx] })
      remote := s1.remote.map (fun o => if o.2.ctx = x.ctx then (o.1, { o.2 with core := c }) else o)
      colls := s1.colls.map (fun o => if o.2.ctx = x.ctx then (o.1, { o.2.afresh with core := c }) else o) } x.ctx)

/-- Saved groups placed each on a core of its list. -/
def State.resumeOn (s : State) (gang : Nat) (l : Launch) (cores : SavedGroup → List Nat) : List SavedGroup → Option State
  | [] => some s
  | x :: rest =>
    match (cores x).findSome? (fun c => s.resumeGroup gang l x c) with
    | none => none
    | some s1 => s1.resumeOn gang l cores rest

/-- The parked words of a resumed group walk again (R344 step 3). -/
def State.replayAll (s : State) (core ctx : Nat) : State :=
  ((s.core core).log.filter (fun e => e.2.ctx == ctx && e.2.gaveUp.isNone)).foldl (fun s e => s.replay core e.1) s

/-- A pre-empted gang placed again as one gang (R343). -/
def State.resumeGang (s : State) (id : Nat) (x : SavedGang) : Option State :=
  match Map.find s.launches x.gang.launch with
  | none => none
  | some l =>
    let all := (s.part l.part).coreList
    let read := match x.groups with
      | [] => x.gang
      | g :: _ => if x.gang.share = 0 then x.gang else s.readShare x.gang g.group
    let start (cluster : Option Nat) (base : Nat) : State :=
      { s with
        saved := Map.erase s.saved id
        gangs := Map.insert s.gangs id { read with members := [], ready := false, cluster := cluster, shareBase := base } }
    let placed :=
      if l.image.clusterN ≠ 0 then
        (s.part l.part).clusterList.findSome? (fun k =>
          match s.shareBase k x.gang.share with
          | none => none
          | some base => ((start (some k) base).modCluster k (fun c => c.claim base x.gang.share)).resumeOn id l (fun g => [k * Config.coresPerCluster + g.coreIndex]) x.groups)
      else (start none 0).resumeOn id l (fun _ => all) x.groups
    placed.map (fun s1 => x.groups.foldl (fun s g => match Map.find s.groups g.ctx with
      | some y => s.replayAll y.core g.ctx
      | none => s) s1)

/-! ## A decision point (R328–R335) -/

/-- Work the distributor ranks. -/
inductive Work
  | saved (gang : Nat)
  | launch (id : Nat)
  deriving DecidableEq, Repr

/-- Effective priority of a launch. -/
def Launch.rankPrio (l : Launch) : Nat := min 15 (l.prio + l.aged)

/-- Ahead in the ranking: higher priority, then older, then the order of the numbers. -/
def rankBefore (a b : Nat × Nat × Nat) : Bool :=
  decide (b.1 < a.1) || (a.1 == b.1 && (decide (a.2.1 < b.2.1) || (a.2.1 == b.2.1 && decide (a.2.2 < b.2.2))))

/-- An item put into its place in a ranking. -/
def rankIn {α : Type} (x : (Nat × Nat × Nat) × α) : List ((Nat × Nat × Nat) × α) → List ((Nat × Nat × Nat) × α)
  | [] => [x]
  | y :: ys => if rankBefore x.1 y.1 then x :: y :: ys else y :: rankIn x ys

/-- Items in rank order. -/
def ranked {α : Type} (xs : List ((Nat × Nat × Nat) × α)) : List α := (xs.foldl (fun acc x => rankIn x acc) []).map Prod.snd

/-- A saved gang held registers in a bank that is still to be retired: it is placed again after that (R417). -/
def State.awaitsBank (s : State) (x : SavedGang) : Bool :=
  x.groups.any (fun g => (s.core g.group.core).bankFaults.any g.group.inBank)

/-- Pending gangs of a partition in rank order, with the effective priority of each. DESIGN CHOICE (log entry 88): a gang that was pre-empted
is placed again though a killed group has closed its launch (R334), since its placement had begun before. -/
def State.work (s : State) (part : Nat) : List (Work × Nat) :=
  let saved := s.saved.filterMap (fun x => (Map.find s.launches x.2.gang.launch).bind (fun l =>
    if l.part = part ∧ !s.awaitsBank x.2 then some ((l.rankPrio, l.visible, 2 * x.2.gang.launch), Work.saved x.1, l.rankPrio) else none))
  let fresh := s.launches.filterMap (fun x =>
    if x.2.part = part ∧ !x.2.closed ∧ x.2.placed < x.2.total then
      some ((x.2.rankPrio, x.2.visible, 2 * x.1 + 1), Work.launch x.1, x.2.rankPrio) else none)
  ranked (saved ++ fresh)

/-- A pending gang placed, if it fits. -/
def State.place (s : State) : Work → Option State
  | .saved id => (Map.find s.saved id).bind (fun x => s.resumeGang id x)
  | .launch id => (Map.find s.launches id).bind (fun l => s.placeGang id l)

/-- The device as it would be without some gangs, for the question what would fit. -/
def State.without (s : State) (gangs : List Nat) : State :=
  (s.gangs.filter (fun x => gangs.contains x.1)).foldl (fun s x => s.saveGang x.1 x.2) s

/-- Resident gangs of lower effective priority, lowest first, then youngest: the one of the latest launch, and of one launch the one placed
last (R335, R345). -/
def State.victims (s : State) (part prio : Nat) : List Nat :=
  ranked (s.gangs.filterMap (fun x => (Map.find s.launches x.2.launch).bind (fun l =>
    if l.part = part ∧ l.rankPrio < prio ∧ x.2.ready then
      some ((15 - l.rankPrio, 2 ^ 64 - l.visible, 2 ^ 64 - x.1), x.1) else none)))

/-- The gang's groups are being stopped. -/
def State.gangStopping (s : State) (id : Nat) : Bool := s.groups.any (fun g => g.2.gang == id && g.2.stop.isSome)

/-- The victims that let the work fit, beside gangs already stopping: the shortest run from the front (R335). -/
def State.chooseVictims (s : State) (w : Work) (stopping : List Nat) : List Nat → List Nat → Option (List Nat)
  | chosen, [] => if ((s.without (stopping ++ chosen)).place w).isSome then some chosen else none
  | chosen, v :: vs =>
    if ((s.without (stopping ++ chosen)).place w).isSome then some chosen else s.chooseVictims w stopping (chosen ++ [v]) vs

/-- A group is asked to stop (R336, R338). -/
def State.stopGroup (s : State) (ctx : Nat) : State :=
  s.modGroup ctx (fun g => if g.stop.isSome then g else { g with stop := some ⟨g.held.isSome, [], s.now, none⟩ })

/-- A gang is asked to stop: its pre-emption enters the cast record. -/
def State.stopGang (s : State) (id : Nat) : State :=
  match Map.find s.gangs id with
  | none => s
  | some x => x.members.foldl (fun s c => match Map.find s.groups c with
    | none => s
    | some g => (s.castGroup c g { cls := 0x08, cause := 0 }).stopGroup c) s

/-- The pending gangs in rank order: the first that fits is placed; one that does not fit stops its victims, if any suffice. -/
def State.placeRanked (s : State) (part : Nat) : List (Work × Nat) → State
  | [] => s
  | (w, prio) :: rest =>
    match s.place w with
    | some s1 => s1
    | none =>
      let stopping := (s.gangs.map Prod.fst).filter s.gangStopping
      match s.chooseVictims w stopping [] ((s.victims part prio).filter (fun v => !s.gangStopping v)) with
      | some vs => vs.foldl State.stopGang s
      | none => s.placeRanked part rest

/-- The partition runs: it has clusters, is not in reset or error, and the device is up (R371, R373, R425). -/
def State.partRuns (s : State) (part : Nat) : Bool :=
  s.devState == .running && (s.part part).clusters != 0 && (s.part part).pstat == 0

/-- A gang of the partition is being placed (R330). -/
def State.placing (s : State) (part : Nat) : Bool :=
  s.gangs.any (fun x => !x.2.ready && (Map.find s.launches x.2.launch).any (fun l => l.part == part))

/-- DECISION_POINT (R328). -/
def execDecisionPoint (part : BitVec 5) (s : State) : Host.Outcome State Fault Refusal :=
  let p := part.toNat
  s.event (s.partRuns p && !(s.part p).idle && !s.placing p)
    (let s1 := ((s.takeBells p).startAll p).modPart p (fun x => { x with idle := true })
     s1.placeRanked p (s1.work p))

/-- GANG_PLACED (R330): its groups may issue. Code on the control cores may have taken CTXIDs meanwhile (R326). -/
def execGangPlaced (part : BitVec 5) (gang : Nat) (s : State) : Host.Outcome State Fault Refusal :=
  s.event ((Map.find s.gangs gang).any (fun x => !x.ready && (Map.find s.launches x.launch).any (fun l => l.part == part.toNat)))
    (((s.modGang gang (fun x => { x with ready := true })).takeControlCtx).wake part.toNat)

/-- PRIORITY_AGING (R328). DESIGN CHOICE (log entry 89): a launch has waited since the doorbell that made it visible, the time in which groups
of it ran included, as its age runs. -/
def execPriorityAging (launch : Nat) (s : State) : Host.Outcome State Fault Refusal :=
  s.event ((Map.find s.launches launch).any (fun l =>
      (decide (l.placed < l.total) || s.saved.any (fun x => x.2.gang.launch == launch)) &&
      decide (l.visible + 4000000 * (l.aged + 1) ≤ s.now) && decide (l.prio + l.aged < 15)))
    { s with launches := Map.modify s.launches launch (fun l => { l with aged := l.aged + 1 }) }

/-- The groups of a gang have all stopped: their slots are written (R337). Acknowledgements given before count from then on. -/
def State.writeGang (s : State) (gang : Nat) : State :=
  match Map.find s.gangs gang with
  | none => s
  | some x =>
    if !x.members.isEmpty && x.members.all (fun c => (Map.find s.groups c).any Group.stopped) then
      x.members.foldl (fun s c => match Map.find s.groups c with
        | none => s
        | some g => s.writeSlot x c g) s
    else s

/-- WORK_GROUP_END (R305): where it was the last of its gang that a stop waited for, the others' slots are written (R337). -/
def execWorkGroupEnd (ctx : Nat) (s : State) : Host.Outcome State Fault Refusal :=
  match Map.find s.groups ctx with
  | none => .next s
  | some g => s.event (s.quiet ctx g) ((s.endGroup ctx g).writeGang g.gang)

/-- LAUNCH_COMPLETE (R327). -/
def execLaunchComplete (launch : Nat) (s : State) : Host.Outcome State Fault Refusal :=
  match Map.find s.launches launch with
  | none => .next s
  | some l => s.event (s.atEnd launch l && l.token.isNone) (s.complete launch l true)

/-- GRAPH_CHILD_START (R333). -/
def execGraphChildStart (launch child : Nat) (s : State) : Host.Outcome State Fault Refusal :=
  match Map.find s.launches launch with
  | none => .next s
  | some l =>
    match l.kids.find? (fun k => k.1 == child) with
    | none => .next s
    | some k => s.event (l.isGraph && s.childFree l k) (s.startChild launch l k)

/-! ## The stop of a victim (R224, R336–R338, R388) -/

/-- The gang's groups have stopped, and the youngest of their saves is 40 core clocks old (R307, R337). -/
def State.gangSaved (s : State) (x : Gang) : Bool :=
  !x.members.isEmpty && x.members.all (fun c => (Map.find s.groups c).any (fun g =>
    g.stopped && (g.stop.bind (fun p => p.saved)).any (fun t => decide (t.1 + Config.strikeWindow ≤ (s.core g.core).clock.toNat))))

/-- PREEMPTION_COMPLETE (R337). -/
def execPreemptionComplete (part : BitVec 5) (s : State) : Host.Outcome State Fault Refusal :=
  match s.gangs.find? (fun x => s.gangSaved x.2 && x.2.members.all (fun c => (Map.find s.groups c).any (fun g => g.part == part.toNat))) with
  | none => .next s
  | some x => s.event true ((s.saveGang x.1 x.2).wake part.toNat)

/-- The held state of a group ends; a pre-emption that waits for it begins (R224, R338). -/
def State.endHold (s : State) (ctx : Nat) : State :=
  s.modGroup ctx (fun g => { g with held := none, stop := g.stop.map (fun x => if x.waiting then ⟨false, [], s.now, none⟩ else x) })

/-- PREEMPT_BUDGET_EXPIRY (R224). -/
def execPreemptBudgetExpiry (ctx : Nat) (s : State) : Host.Outcome State Fault Refusal :=
  match Map.find s.groups ctx with
  | none => .next s
  | some g =>
    s.event (g.held.any (fun t => decide (t + 1000 * g.budget ≤ s.now)))
      ((s.endHold ctx).castGroup ctx g { cls := 0x08, cause := 1 })

/-- CTXID_REUSE_DELAY_END (R326). -/
def execCtxidReuseDelayEnd (ctxid : Nat) (s : State) : Host.Outcome State Fault Refusal :=
  s.event ((Map.find s.ctxEnded ctxid).any (fun t => decide (t + 1000000000 ≤ s.now)))
    { s with ctxEnded := Map.erase s.ctxEnded ctxid, parts := s.parts.map (fun p => { p with idle := p.idle && p.clusters == 0 }) }

end Sys2Proof.Machine
end

