-- ==== Sys2Proof/Machine/Repair.lean ====
section
/-! DEFINITION. Units, self-tests, retirements, fatal errors (R234, R274, R391, R415–R418, R421, R425). -/

namespace Sys2Proof.Machine

/-! ## Fatal errors (R425) -/

/-- The code of a fatal cause. -/
def fatalCode : FatalCause → Nat
  | .controlState => 0 | .spliceLanes => 1 | .temperature => 2 | .firmwareCheck => 3

/-- A fatal error: every cluster records it and freezes its ring, every partition stops (R425). -/
def State.fatal (s : State) (cause : FatalCause) : State :=
  let s1 := (List.range Config.clusters).foldl (fun s k =>
    (s.cast k { cls := 0x0C, cause := fatalCode cause }).modCluster k (fun c => { c with frozen := true })) s
  { (List.range 32).foldl State.stopPartition s1 with devState := .fatal }

/-! ## Units (R416) -/

/-- The unit under one name: a lane belongs to the device, a cluster's scratch bank to its first core. -/
def unitNorm (u : UnitRef) : UnitRef :=
  if u.cls = 3 then { u with core := 0 }
  else if u.cls = 2 ∧ 33 ≤ u.index.toNat then { u with core := clusterOf u.core * Config.coresPerCluster }
  else u

/-- The unit exists (R229, R416). -/
def unitKnown (u : UnitRef) : Bool :=
  let i := u.index.toNat
  decide (u.core < Config.cores) &&
  match u.cls.toNat with
  | 0 => decide (i < 32)
  | 1 => decide (i < 16)
  | 2 => decide (i < 66)
  | 3 => decide (i < 48) || (decide (64 ≤ i) && decide (i < 128))
  | _ => false

/-- STEST's 16-bit name of a unit, for a core. -/
def unitOf (core : Nat) (u : BitVec 16) : UnitRef := unitNorm ⟨core, u.extractLsb' 12 4, u.setWidth 12⟩

/-- The unit is under test. -/
def State.underTest (s : State) (u : UnitRef) : Bool := s.tests.any (fun t => t.unit == unitNorm u)

/-- Lanes of a port in service. -/
def Port.lanesUp (p : Port) : Nat := p.lanes.countP (fun l => !l.retired)

/-- Port and lane of a link unit (R416). -/
def linkLaneOf (i : Nat) : Nat × Nat := if i < 48 then (i / 4, i % 4) else (splicePort, i - 64)

/-- The link unit of a port's lane. -/
def laneUnit (p l : Nat) : UnitRef := ⟨0, 3, BitVec.ofNat 12 (if p = splicePort then 64 + l else 4 * p + l)⟩

/-- The unit cannot be spared, or is under test already; whether another route to a port's peer stands is the machine's own (R417). -/
def State.refuses (s : State) (u : UnitRef) : Bool :=
  let i := u.index.toNat
  s.underTest u ||
  (u.cls == 3 && decide ((s.port (linkLaneOf i).1).lanesUp ≤ (if i < 48 then 1 else 8)) &&
    !(decide (i < 48) && Config.otherRoute (i / 4)) &&
    !(s.port (linkLaneOf i).1).lanes[(linkLaneOf i).2]?.any (fun l => l.retired))

/-- An event of a unit (R422). -/
def State.castUnit (s : State) (u : UnitRef) (cls cause : Nat) (data : Word) : State :=
  s.cast (clusterOf u.core) { cls := cls, cause := cause, data := data, core := if u.cls = 3 then 0xFF else u.core }

/-! ## Retirement -/

/-- The groups that hold registers in a bank of a core. -/
def State.bankUsers (s : State) (c bank : Nat) : List (Nat × Group) :=
  (s.onCore c).filter (fun g => g.2.inBank bank)

/-- A register bank is retired, unless it is already (R234, R432). -/
def State.retireBank (s : State) (c bank : Nat) : State :=
  if (s.core c).retiredBanks.contains bank then s.modCore c (fun k => { k with bankFaults := k.bankFaults.filter (fun b => b != bank) })
  else
  (s.modCore c (fun k => { k with
    retiredBanks := insertNat bank k.retiredBanks, bankFaults := k.bankFaults.filter (fun b => b != bank) })).modCluster (clusterOf c)
      (fun k => { k with banksRetired := k.banksRetired + 1 }) |>.cast (clusterOf c) { cls := 0x06, cause := 0, core := c }

/-- The number that stands among a core's faulty rows for a fault that the test has not placed in one row. -/
def noRow : Nat := 264

/-- A physical row leaves service and the lowest spare enters it; a ninth fault, or one not in a single row, retires the array (R274). -/
def State.retireRow (s : State) (c row : Nat) : State :=
  let k := s.core c
  if 8 ≤ k.spares ∨ noRow ≤ row then
    (s.modCore c (fun k => { k with arrayRetired := true, rowFaults := [] })).cast (clusterOf c) { cls := 0x06, cause := 1, core := c }
  else
    (s.modCore c (fun k => { k with
      spares := k.spares + 1
      retiredRows := insertNat row k.retiredRows
      rowFaults := k.rowFaults.filter (fun r => r != row) })).cast (clusterOf c) { cls := 0x06, cause := 1, core := c }

/-- A lane leaves service, unless it has already; the splice needs eight (R391, R421, R432). -/
def State.retireLane (s : State) (i : Nat) : State :=
  if (s.port (linkLaneOf i).1).lanes[(linkLaneOf i).2]?.any (fun l => l.retired) then s
  else
  let s1 := s.castUnit ⟨0, 3, BitVec.ofNat 12 i⟩ 0x06 3 (BitVec.ofNat 32 i)
  let s2 := s1.modCluster 0 (fun k => { k with lanesRetired := k.lanesRetired + 1 })
  let s3 := s2.modPort (linkLaneOf i).1 (fun p => { p with lanes := p.lanes.modify (linkLaneOf i).2 (fun l => { l with retired := true }) })
  if 48 ≤ i ∧ s3.splice.lanesUp < 8 then s3.fatal .spliceLanes else s3

/-- A unit with a lasting fault is retired, or waits until nothing uses it (R274, R416, R417). -/
def State.retireUnit (s : State) (u : UnitRef) : State :=
  let c := u.core
  let i := u.index.toNat
  match u.cls.toNat with
  | 0 =>
    let users := s.bankUsers c i
    if users.isEmpty then s.retireBank c i
    else
      (users.map (fun g => g.2.gang)).dedup.foldl State.stopGang (s.modCore c (fun k => { k with bankFaults := insertNat i k.bankFaults }))
  | 1 =>
    let row := min noRow (Config.faultRow s.fresh)
    let s1 := s.draw.modCore c (fun k => { k with rowFaults := insertNat row k.rowFaults })
    if (s1.core c).owner.isNone then s1.retireRow c row else s1
  | 2 =>
    if i < 33 then
      (s.modCore c (fun k => if i = 32 ∨ k.scratchSpare then { k with scratchRetired := true } else { k with scratchSpare := true })).cast
        (clusterOf c) { cls := 0x06, cause := 2, core := c }
    else
      (s.modCluster (clusterOf c) (fun k =>
        if i = 65 ∨ k.scratchSpare then { k with scratchRetired := true } else { k with scratchSpare := true })).cast
        (clusterOf c) { cls := 0x06, cause := 2 }
  | _ => s.retireLane i

/-! ## Self-tests (R416) -/

/-- A test of a unit starts, unless it is under test already. -/
def State.startTest (s : State) (u : UnitRef) (waiter : Option (SlotRef × Reg × Mask)) : State :=
  if s.underTest u then s else { s with tests := s.tests ++ [⟨unitNorm u, waiter⟩] }

/-- The slots that wait for something go on, each with a value for its covered threads. -/
def State.answer (s : State) (waiter : Option (SlotRef × Reg × Mask)) (waits : Wait → Bool) (v : Word) : State :=
  match waiter with
  | none => s
  | some (r, vd, cov) =>
    s.modWave r.ctx r.wave (Wave.everySlot (fun w =>
      if w.slots[slotIx r.slot].wait.any waits then
        (w.writeLanes (cov &&& w.alive) vd.toNat .none (fun _ => v)).advance (slotIx r.slot)
      else w))

/-- The outcome of a test: 0 passed, 1 transient, 2 lasting (R229, R416). -/
def testCode (draw : Nat) : Nat := min 2 (Config.testResult draw).toNat

/-- Three of a lane's steps down lie within one hour (R421). -/
def LinkLane.worn (l : LinkLane) : Bool :=
  (List.range l.steps.length).any (fun i => (l.steps[i + 2]?).any (fun t => decide (l.steps[i]?.getD 0 ≤ t + 3600000000000)))

/-- A lane's test leaves its margin, and tells its port whether it passed (R391, R421). -/
def State.laneTested (s : State) (u : UnitRef) (pass : Bool) : State :=
  if u.cls = 3 then
    let x := linkLaneOf u.index.toNat
    s.draw.modPort x.1 (fun p => { p with
      passed := pass
      lanes := p.lanes.modify x.2 (fun l => { l with margin := Config.eyeMargin s.fresh }) })
  else s

/-- The unit is a worn lane, which its next test retires (R421). -/
def State.wornLane (s : State) (u : UnitRef) : Bool :=
  u.cls == 3 && (s.port (linkLaneOf u.index.toNat).1).lanes[(linkLaneOf u.index.toNat).2]?.any LinkLane.worn

/-- A test of a unit ends: a lasting fault retires it unless it cannot be spared, and so does any result of a worn lane; the result enters the
cast record (R416, R421, R422). DESIGN CHOICE (log entry 86): of a worn lane that passes, the record and STEST have the test's own result, though
the lane is retired. -/
def State.endTest (s : State) (u : UnitRef) : State :=
  match s.tests.find? (fun t => t.unit == u) with
  | none => s
  | some t =>
    let r := testCode s.fresh
    let retires := r == 2 || s.wornLane u
    let s1 := { s.draw with tests := s.tests.filter (fun t => t.unit != u) }.laneTested u (decide (r < 2))
    let refused := retires && s1.refuses u
    let s2 := s1.castUnit u 0x05 (if refused then 3 else r) (BitVec.ofNat 32 (if refused then 3 else r))
    let s3 := if retires && !refused then s2.retireUnit u else s2
    s3.answer t.waiter (fun w => match w with | .test _ => true | _ => false) (if refused then 3 else BitVec.ofNat 32 r)

/-! ## Events -/

/-- An error counted against a unit; the eighth within a second starts a test (R416). -/
def State.countCorrected (s : State) (u : UnitRef) : State :=
  let k := clusterOf u.core
  let s1 := s.modCluster k (fun c => { c with
    corrected := (u, s.now) :: c.corrected.filter (fun x => x.1 != u || decide (s.now < x.2 + 1000000000)) })
  if 8 ≤ ((s1.cluster k).corrected.countP (fun x => x.1 == u)) then s1.startTest u none else s1

/-- CORRECTED_ERROR (R416). -/
def execCorrectedError (unit : UnitRef) (s : State) : Host.Outcome State Fault Refusal :=
  let u := unitNorm unit
  s.event (unitKnown u) ((s.castUnit u 0x03 u.cls.toNat 0).countCorrected u)

/-- What an uncorrectable error leaves marked (R303). -/
def State.mark (s : State) : BadPlace → State
  | .register ctx wave reg elem => s.modWave ctx wave (fun w => { w with badElems := if w.badElems.contains (reg, elem) then w.badElems else (reg, elem) :: w.badElems })
  | .predicate ctx wave pred thread => s.modWave ctx wave (fun w =>
      { w with badPreds := if w.badPreds.contains (pred, thread) then w.badPreds else (pred, thread) :: w.badPreds })
  | .line a => { s with badLines := insertNat a s.badLines }
  | .scratch ctx off => s.modGroup ctx (fun g => { g with badScratch := insertNat (off / 4) g.badScratch })
  | .element c t e => s.modCore c (fun k => { k with tiles := vmod k.tiles t (fun x => { x with bad := insertNat e x.bad }) })
  | .share gang off => s.modGang gang (fun g => { g with badScratch := insertNat (off / 4) g.badScratch })
  | .anchor c t => s.modCore c (fun k => { k with tiles := vmod k.tiles t (fun x => { x with badAnchor := true }) })

/-- UNCORRECTABLE_ERROR (R416): recorded, marked where it lies, and the unit is tested. -/
def execUncorrectableError (unit : UnitRef) (place : Option BadPlace) (s : State) : Host.Outcome State Fault Refusal :=
  let u := unitNorm unit
  let s1 := s.castUnit u 0x03 u.cls.toNat 0
  s.event (unitKnown u) ((match place with | none => s1 | some p => s1.mark p).startTest u none)

/-- SELF_TEST_END (R416). -/
def execSelfTestEnd (unit : UnitRef) (s : State) : Host.Outcome State Fault Refusal :=
  s.event (s.underTest unit) (s.endTest (unitNorm unit))

/-- REGISTER_BANK_RETIRE (R417). -/
def execRegisterBankRetire (core part bank : Nat) (s : State) : Host.Outcome State Fault Refusal :=
  let b := 8 * part + bank
  s.event ((s.core core).bankFaults.contains b && (s.bankUsers core b).isEmpty && decide (part < 4) && decide (bank < 8))
    (match s.partOfCore core with
     | none => s.retireBank core b
     | some p => (s.retireBank core b).wake p)

/-- SPARE_ROW_ENTRY (R274). -/
def execSpareRowEntry (core row : Nat) (s : State) : Host.Outcome State Fault Refusal :=
  s.event ((s.core core).rowFaults.contains row && (s.core core).owner.isNone)
    (match s.partOfCore core with
     | none => s.retireRow core row
     | some p => (s.retireRow core row).wake p)

/-- FATAL_ERROR (R425). -/
def execFatalError (cause : FatalCause) (s : State) : Host.Outcome State Fault Refusal :=
  s.event (s.devState == .running) (s.fatal cause)

end Sys2Proof.Machine
end

