-- ==== Sys2Proof/Machine/FloatOps.lean ====
section
/-! DEFINITION. The floating-point group (R120–R127). -/

namespace Sys2Proof.Machine

/-- An FP operation with one destination: result and events (R48). -/
def opFp (vd : Reg) (srcs : List Reg) (rule : List Tag → Tag) (f : List Word → Outs) : AluOp :=
  ⟨[vd.toNat], srcs.map BitVec.toNat, true, rule, fun _ xs => f xs⟩

/-- FADD (R120). -/
def execFadd (g : Guard) (vd va vb : Reg) (rnd : Rnd) (s : State) : Host.Outcome State Fault Refusal :=
  s.aluWord g (fun h => opFp vd [va, vb] tagUniform (fun xs => fadd32 rnd h.w.fpctl (arg xs 0) (arg xs 1)))

/-- FSUB (R120). -/
def execFsub (g : Guard) (vd va vb : Reg) (rnd : Rnd) (s : State) : Host.Outcome State Fault Refusal :=
  s.aluWord g (fun h => opFp vd [va, vb] tagUniform (fun xs => fsub32 rnd h.w.fpctl (arg xs 0) (arg xs 1)))

/-- FMUL (R120). -/
def execFmul (g : Guard) (vd va vb : Reg) (rnd : Rnd) (s : State) : Host.Outcome State Fault Refusal :=
  s.aluWord g (fun h => opFp vd [va, vb] tagUniform (fun xs => fmul32 rnd h.w.fpctl (arg xs 0) (arg xs 1)))

/-- FFMA (R120). -/
def execFfma (g : Guard) (vd va vb vc : Reg) (rnd : Rnd) (s : State) : Host.Outcome State Fault Refusal :=
  s.aluWord g (fun h => opFp vd [va, vb, vc] tagUniform (fun xs => ffma32 rnd h.w.fpctl (arg xs 0) (arg xs 1) (arg xs 2)))

/-- FMIN (R121). -/
def execFmin (g : Guard) (vd va vb : Reg) (s : State) : Host.Outcome State Fault Refusal :=
  s.aluWord g (fun h => opFp vd [va, vb] tagUniform (fun xs => fminmax32 false h.w.fpctl (arg xs 0) (arg xs 1)))

/-- FMAX (R121). -/
def execFmax (g : Guard) (vd va vb : Reg) (s : State) : Host.Outcome State Fault Refusal :=
  s.aluWord g (fun h => opFp vd [va, vb] tagUniform (fun xs => fminmax32 true h.w.fpctl (arg xs 0) (arg xs 1)))

/-- FCMP (R122). -/
def execFcmp (g : Guard) (pd : PredNo) (va vb : Reg) (pc : PredNo) (cond : FCond) (comb : Comb) (s : State) :
    Host.Outcome State Fault Refusal :=
  s.waveWord (fun h =>
    h.w.setPred pd (h.w.cover h.k g) (Mask.ofPred (fun t =>
      combine comb (fcmp32 cond h.w.fpctl (h.w.read va.toNat t) (h.w.read vb.toNat t)) (h.w.pred pc t))))

/-- FRCP (R123). -/
def execFrcp (g : Guard) (vd va : Reg) (rnd : Rnd) (s : State) : Host.Outcome State Fault Refusal :=
  s.aluWord g (fun h => opFp vd [va] tagNone (fun xs => fpOuts h.w.fpctl (rcpNum rnd (num32 h.w.fpctl (arg xs 0)))))

/-- FRSQ (R123). -/
def execFrsq (g : Guard) (vd va : Reg) (rnd : Rnd) (s : State) : Host.Outcome State Fault Refusal :=
  s.aluWord g (fun h => opFp vd [va] tagNone (fun xs => fpOuts h.w.fpctl (rsqNum rnd (num32 h.w.fpctl (arg xs 0)))))

/-- FSQRT (R123). -/
def execFsqrt (g : Guard) (vd va : Reg) (rnd : Rnd) (s : State) : Host.Outcome State Fault Refusal :=
  s.aluWord g (fun h => opFp vd [va] tagNone (fun xs => fpOuts h.w.fpctl (sqrtNum rnd (num32 h.w.fpctl (arg xs 0)))))

/-- FEXP2 (R123). -/
def execFexp2 (g : Guard) (vd va : Reg) (rnd : Rnd) (s : State) : Host.Outcome State Fault Refusal :=
  s.aluWord g (fun h => opFp vd [va] tagNone (fun xs => fpOuts h.w.fpctl (exp2Num rnd (num32 h.w.fpctl (arg xs 0)))))

/-- FLOG2 (R123). -/
def execFlog2 (g : Guard) (vd va : Reg) (rnd : Rnd) (s : State) : Host.Outcome State Fault Refusal :=
  s.aluWord g (fun h => opFp vd [va] tagNone (fun xs => fpOuts h.w.fpctl (log2Num rnd (num32 h.w.fpctl (arg xs 0)))))

/-- FCLASS (R124). -/
def execFclass (g : Guard) (vd va : Reg) (s : State) : Host.Outcome State Fault Refusal :=
  s.aluWord g (fun _ => op1 vd [va] tagUniform (fun xs => fclass32 (arg xs 0)))

/-- PKADD (R125). -/
def execPkadd (g : Guard) (vd va vb : Reg) (h : Bool) (rnd : Rnd) (s : State) : Host.Outcome State Fault Refusal :=
  s.aluWord g (fun _ => opFp vd [va, vb] tagNone (fun xs => pkadd32 h rnd (arg xs 0) (arg xs 1)))

/-- PKMUL (R125). -/
def execPkmul (g : Guard) (vd va vb : Reg) (h : Bool) (rnd : Rnd) (s : State) : Host.Outcome State Fault Refusal :=
  s.aluWord g (fun _ => opFp vd [va, vb] tagNone (fun xs => pkmul32 h rnd (arg xs 0) (arg xs 1)))

/-- PKFMA (R125). -/
def execPkfma (g : Guard) (vd va vb vc : Reg) (h : Bool) (rnd : Rnd) (s : State) : Host.Outcome State Fault Refusal :=
  s.aluWord g (fun _ => opFp vd [va, vb, vc] tagNone (fun xs => pkfma32 h rnd (arg xs 0) (arg xs 1) (arg xs 2)))

/-- The registers of an operand of a number type (R15). -/
def numRegs (r : Reg) (ty : NumType) : List Nat := if ty.bits = 64 then [r.toNat, r.toNat + 1] else [r.toNat]

/-- The source field of CVT (R126). -/
def cvtRaw (hs : Bool) (src : NumType) (xs : List Word) : Nat :=
  if src.bits = 64 then (arg64 xs 0).toNat
  else if hs then (arg xs 0).toNat / 2 ^ 16 else (arg xs 0).toNat % 2 ^ src.bits

/-- CVT (R126). -/
def execCvt (g : Guard) (vd va : Reg) (rnd : Rnd) (hs : Bool) (dst src : NumType) (sat : Bool) (s : State) :
    Host.Outcome State Fault Refusal :=
  s.aluWord g (fun h =>
    ⟨numRegs vd dst, numRegs va src, true, if dst.bits = 64 || src.bits = 64 then tagNone else tagUniform, fun _ xs =>
      let o := cvt64 h.w.fpctl rnd dst src sat (cvtRaw hs src xs)
      ⟨words64 o.bits, o.inv, o.ovf⟩⟩)

/-- The first thread of a thread's group of 16 (R127). -/
def group16 (t : Lane) : Nat := t.val / 16 * 16

/-- The lane of a number below 32. -/
def laneOf (n : Nat) : Lane := ⟨n % 32, Nat.mod_lt _ (by decide)⟩

/-- BXPK (R127): uncovered threads of a group count as +0. -/
def execBxpk (g : Guard) (vd va : Reg) (fmt : SxFmt) (rnd : Rnd) (s : State) : Host.Outcome State Fault Refusal :=
  s.aluWord g (fun h =>
    let cov := h.w.cover h.k g
    let block (b : Nat) : FpOut := bxEncode (sxW fmt) rnd ((List.range 16).map (fun i =>
      if Mask.has cov (laneOf (b + i)) then (daz h.w.fpctl (h.w.read va.toNat (laneOf (b + i)))).toNat else 0))
    ⟨[vd.toNat], [], false, tagNone, fun t _ =>
      let o := block (group16 t)
      ⟨[BitVec.ofNat 32 (o.bits / 2 ^ (32 * (t.val % 16)))], o.inv, o.ovf⟩⟩)

/-- The block a group of 16 threads holds, read whatever their cover; exited and dead threads give 0 (R127). -/
def bxBlock (w : Wave) (va : Nat) (n base : Nat) : Nat :=
  (List.range n).foldr (fun j acc =>
    acc * 2 ^ 32 + (if Mask.has w.alive (laneOf (base + j)) then (w.read va (laneOf (base + j))).toNat else 0)) 0

/-- A group with a covered thread reads a dead thread's word (R127). -/
def bxDeadSource (w : Wave) (cov : Mask) (n : Nat) : Bool :=
  [0, 16].any (fun b => (Mask.lanes cov).any (fun t => group16 t == b) &&
    (List.range n).any (fun j => Mask.has w.dead (laneOf (b + j))))

/-- BXUPK (R127). -/
def execBxupk (g : Guard) (vd va : Reg) (fmt : SxFmt) (s : State) : Host.Outcome State Fault Refusal :=
  s.waveWord (fun h =>
    let cov := h.w.cover h.k g
    let w1 := h.w.writeLanes cov vd.toNat .none (fun t =>
      ftz h.w.fpctl (BitVec.ofNat 32 (sxDecode (sxW fmt) (bxBlock h.w va.toNat (sxWords fmt) (group16 t)) (t.val % 16))))
    { w1 with deadsrc := w1.deadsrc || bxDeadSource h.w cov (sxWords fmt) })

end Sys2Proof.Machine
end

