-- ==== Sys2Proof/Machine/Lane.lean ====
section
/-! DEFINITION. The lay and lane group (R129–R144). -/

namespace Sys2Proof.Machine

/-- First thread of a thread's segment (R130). -/
def segBase (n : Nat) (t : Lane) : Nat := t.val - t.val % n

/-- In a Z5 wave a shuffle that would read a parked thread reads its own (R411). -/
def z5Source (w : Wave) (t : Lane) (src : Option Lane) : Option Lane :=
  match src with
  | none => none
  | some q => if w.z5 && decide (16 ≤ q.val) then some t else some q

/-- A map edit of the issuing slot. -/
def State.edit (s : State) (g : Guard) (vd vs : Reg) (src : Here → Lane → Option Lane) : Host.Outcome State Fault Refusal :=
  s.waveWord (fun h => h.w.mapEdit (h.cov g) vd.toNat vs.toNat (src h))

/-- The source of a shuffle by a register (R134). -/
def shflFrom (w : Wave) (vb : Reg) (wid : Wid) (z : Bool) (t : Lane) : Option Lane :=
  let b := (w.read vb.toNat t).toNat
  z5Source w t
    (if !z then some (laneOf (segBase wid.size t + b % wid.size))
     else if b < wid.size then some (laneOf (segBase wid.size t + b)) else none)

/-- The source of SHFLX (R134). -/
def shflxFrom (w : Wave) (wid : Wid) (k : BitVec 5) (t : Lane) : Option Lane :=
  z5Source w t (some (laneOf (segBase wid.size t + (t.val % wid.size ^^^ k.toNat))))

/-- The source of SHFLUP (R134). -/
def shflupFrom (w : Wave) (wid : Wid) (k : BitVec 5) (t : Lane) : Option Lane :=
  z5Source w t (some (if k.toNat ≤ t.val % wid.size then laneOf (t.val - k.toNat) else t))

/-- The source of SHFLDN (R134). -/
def shfldnFrom (w : Wave) (wid : Wid) (k : BitVec 5) (t : Lane) : Option Lane :=
  z5Source w t (some (if t.val % wid.size + k.toNat < wid.size then laneOf (t.val + k.toNat) else t))

/-- The source of BCAST (R134). -/
def bcastFrom (w : Wave) (wid : Wid) (k : BitVec 5) (t : Lane) : Option Lane :=
  z5Source w t (some (laneOf (segBase wid.size t + k.toNat)))

/-- The source of LXPOSE (R135): thread c·nr + i takes thread i·nc + c. -/
def lxposeFrom (rows : BitVec 3) (t : Lane) : Option Lane :=
  some (laneOf (t.val % 2 ^ rows.toNat * (32 / 2 ^ rows.toNat) + t.val / 2 ^ rows.toNat))

/-- The covered threads with a predicate, ascending (R136). -/
def predLanes (w : Wave) (cov : Mask) (pc : PredNo) : List Lane := Mask.lanes (cov &&& w.predMask pc)

/-- The source of COMPACT (R136). -/
def compactFrom (w : Wave) (cov : Mask) (pc : PredNo) (t : Lane) : Option Lane := (predLanes w cov pc)[t.val]?

/-- The source of EXPAND (R136). -/
def expandFrom (w : Wave) (cov : Mask) (pc : PredNo) (t : Lane) : Option Lane :=
  ((predLanes w cov pc).findIdx? (fun q => q == t)).map laneOf

/-- SHFL (R134). -/
def execShfl (g : Guard) (vd vs vb : Reg) (wid : Wid) (z : Bool) (s : State) : Host.Outcome State Fault Refusal :=
  s.edit g vd vs (fun h => shflFrom h.w vb wid z)

/-- SHFLX (R134). -/
def execShflx (g : Guard) (vd vs : Reg) (wid : Wid) (k : BitVec 5) (s : State) : Host.Outcome State Fault Refusal :=
  s.edit g vd vs (fun h => shflxFrom h.w wid k)

/-- SHFLUP (R134). -/
def execShflup (g : Guard) (vd vs : Reg) (wid : Wid) (k : BitVec 5) (s : State) : Host.Outcome State Fault Refusal :=
  s.edit g vd vs (fun h => shflupFrom h.w wid k)

/-- SHFLDN (R134). -/
def execShfldn (g : Guard) (vd vs : Reg) (wid : Wid) (k : BitVec 5) (s : State) : Host.Outcome State Fault Refusal :=
  s.edit g vd vs (fun h => shfldnFrom h.w wid k)

/-- BCAST (R134). -/
def execBcast (g : Guard) (vd vs : Reg) (wid : Wid) (k : BitVec 5) (s : State) : Host.Outcome State Fault Refusal :=
  s.edit g vd vs (fun h => bcastFrom h.w wid k)

/-- LXPOSE (R135). -/
def execLxpose (g : Guard) (vd vs : Reg) (rows : BitVec 3) (s : State) : Host.Outcome State Fault Refusal :=
  s.edit g vd vs (fun _ => lxposeFrom rows)

/-- COMPACT (R136). -/
def execCompact (g : Guard) (vd vs : Reg) (pc : PredNo) (s : State) : Host.Outcome State Fault Refusal :=
  s.edit g vd vs (fun h => compactFrom h.w (h.cov g) pc)

/-- EXPAND (R136). -/
def execExpand (g : Guard) (vd vs : Reg) (pc : PredNo) (s : State) : Host.Outcome State Fault Refusal :=
  s.edit g vd vs (fun h => expandFrom h.w (h.cov g) pc)

/-- RELAY (R137), whatever EXEC and the guard hold. -/
def execRelay (_g : Guard) (vd : Reg) (s : State) : Host.Outcome State Fault Refusal :=
  s.waveWord (fun h => h.w.materialise vd.toNat)

/-- LAYRD (R138). It reads the entries and the base that `va` has before the write of `vd` materialises anything (log entry 72). -/
def execLayrd (g : Guard) (vd va : Reg) (b : Bool) (s : State) : Host.Outcome State Fault Refusal :=
  s.waveWord (fun h =>
    h.w.writeLanes (h.cov g) vd.toNat .none (fun t =>
      if b then BitVec.ofNat 32 (h.w.baseOf va.toNat)
      else match (h.w.reg va.toNat).loc[t] with
        | none => 0x80000000
        | some e => BitVec.ofNat 32 e.val))

/-- The covered threads whose value is no lay entry (R139). -/
def laywrBad (w : Wave) (cov : Mask) (va : Reg) : Mask :=
  Mask.ofPred (fun t => Mask.has cov t && !(w.read va.toNat t).getLsbD 31 && decide (31 < (w.read va.toNat t).toNat))

/-- LAYWR (R139). -/
def execLaywr (g : Guard) (vd va : Reg) (s : State) : Host.Outcome State Fault Refusal :=
  s.word (fun h =>
    let cov := h.cov g
    let bad := laywrBad h.w cov va
    if bad ≠ 0 then .error (Trap.named h.w .illegalOpcode bad va.toNat 0)
    else if cov = 0 then .ok (s.putWave h (h.w.advance h.k))
    else
      let entries : LocMap := Vector.ofFn (fun t =>
        if Mask.has cov t then
          (if (h.w.read va.toNat t).getLsbD 31 then none else some (laneOf (h.w.read va.toNat t).toNat))
        else (h.w.reg vd.toNat).loc[t])
      .ok (s.putWave h ((h.w.setReg vd.toNat { h.w.reg vd.toNat with loc := entries, tag := .none }).advance h.k)))

/-- The covered threads with the predicate true (R140). -/
def ballot (w : Wave) (cov : Mask) (pc : PredNo) : Mask := cov &&& w.predMask pc

/-- VOTE.ballot (R140). -/
def execVoteBallot (g : Guard) (vd : Reg) (pc : PredNo) (s : State) : Host.Outcome State Fault Refusal :=
  s.waveWord (fun h => h.w.writeLanes (h.cov g) vd.toNat .none (fun _ => ballot h.w (h.cov g) pc))

/-- A predicate set to one value in every covered thread. -/
def Wave.setPredAll (w : Wave) (pd : PredNo) (cov : Mask) (b : Bool) : Wave := w.setPred pd cov (if b then cov else 0)

/-- VOTE.any (R140). -/
def execVoteAny (g : Guard) (pd pc : PredNo) (s : State) : Host.Outcome State Fault Refusal :=
  s.waveWord (fun h => h.w.setPredAll pd (h.cov g) (ballot h.w (h.cov g) pc != 0))

/-- VOTE.all (R140). -/
def execVoteAll (g : Guard) (pd pc : PredNo) (s : State) : Host.Outcome State Fault Refusal :=
  s.waveWord (fun h => h.w.setPredAll pd (h.cov g) (ballot h.w (h.cov g) pc == h.cov g))

/-- VOTE.eq (R140). -/
def execVoteEq (g : Guard) (pd pc : PredNo) (s : State) : Host.Outcome State Fault Refusal :=
  s.waveWord (fun h =>
    h.w.setPredAll pd (h.cov g) (ballot h.w (h.cov g) pc == 0 || ballot h.w (h.cov g) pc == h.cov g))

/-- The participants of a thread's segment: covered threads, ascending (R142). -/
def segLanes (cov : Mask) (n : Nat) (t : Lane) : List Lane := (Mask.lanes cov).filter (fun q => segBase n q == segBase n t)

/-- A value as the reduction takes it: after DAZ for an FP operation (R50, R143). -/
def redIn (op : GOp) (c x : Word) : Word := if gopIsFp op then daz c x else x

/-- GRED (R141–R143). -/
def execGred (g : Guard) (vd va : Reg) (op : GOp) (wid : Wid) (rnd : Rnd) (s : State) : Host.Outcome State Fault Refusal :=
  s.aluWord g (fun h =>
    ⟨[vd.toNat], [], false, tagNone, fun t _ =>
      gopCombine op rnd h.w.fpctl ((segLanes (h.cov g) wid.size t).map (fun q => redIn op h.w.fpctl (h.w.read va.toNat q)))⟩)

/-- GSCAN (R141–R143): each prefix is combined on its own. -/
def execGscan (g : Guard) (vd va : Reg) (op : GOp) (wid : Wid) (rnd : Rnd) (exc : Bool) (s : State) :
    Host.Outcome State Fault Refusal :=
  s.aluWord g (fun h =>
    ⟨[vd.toNat], [], false, tagNone, fun t _ =>
      gopCombine op rnd h.w.fpctl
        (((segLanes (h.cov g) wid.size t).filter (fun q => if exc then decide (q.val < t.val) else decide (q.val ≤ t.val))).map
          (fun q => redIn op h.w.fpctl (h.w.read va.toNat q)))⟩)

/-- The value MATCH compares (R144). -/
def matchVal (w : Wave) (va : Reg) (d : Bool) (t : Lane) : BitVec 64 :=
  if d then w.read64 va.toNat t else (w.read va.toNat t).setWidth 64

/-- MATCH (R144): the mask of equal values, or with ALL whether all are equal. -/
def execMatchv (g : Guard) (vd va : Reg) (all d : Bool) (s : State) : Host.Outcome State Fault Refusal :=
  s.waveWord (fun h =>
    let cov := h.cov g
    if all then
      h.w.setPredAll (vd.extractLsb' 0 3) cov (dissent cov (matchVal h.w va d) == 0)
    else
      h.w.writeLanes cov vd.toNat .none (fun t =>
        Mask.ofPred (fun q => Mask.has cov q && matchVal h.w va d q == matchVal h.w va d t)))

end Sys2Proof.Machine
end

