-- ==== Sys2Proof/Machine/Control.lean ====
section
/-! DEFINITION. The control group: branches, joins, calls, exit, the active mask, predicate logic, SPAWN (R145–R155, R434). -/

namespace Sys2Proof.Machine

/-- The address a 24-bit offset names from the issuing word (R80). -/
def branchTo (pc : Addr) (off : BitVec 24) : Addr := pc + 8 * off.signExtend 64

/-- A code address a control transfer may take (R149). -/
def codeAddrOk (a : Addr) : Bool := a.extractLsb' 0 3 == 0 && a == (a.extractLsb' 0 57).signExtend 64

/-- The other slot lives, or the lone slot still holds a pair join: a divergence pushes an entry (R147, R434). -/
def Wave.pushes (w : Wave) (k : Fin 2) : Bool := w.otherLive k || w.slots[k].pair.isSome

/-- BRA, per thread (R147). -/
def execBra (g : Guard) (tgt join : BitVec 24) (s : State) : Host.Outcome State Fault Refusal :=
  s.word (fun h =>
    let T := h.cov g
    let F := h.w.exec h.k &&& ~~~T
    let target := branchTo h.pc tgt
    let J := branchTo h.pc join
    if F = 0 then .ok (s.putWave h (h.w.goTo h.k target))
    else if T = 0 then .ok (s.putWave h (h.w.advance h.k))
    else if join = 0 ∨ h.w.slots[h.k].hold ≠ 0 then .error h.structure
    else if !h.w.pushes h.k then
      let base := (h.w.goTo 0 (h.pc + 8)).setSlot 0 (fun p => PathSlot.behindAll { p with live := true, exec := F, pair := some J } s.nextId)
      .ok (s.putWave h { base with
        slots := #v[base.slots[(0 : Fin 2)],
          PathSlot.behindAll { PathSlot.empty with
            live := true
            pc := target
            exec := T
            pair := some J
            label := otherLabel base.slots[(0 : Fin 2)].label } s.nextId] })
    else if h.w.stackFull then .error h.structure
    else
      .ok (s.putWave h (((h.w.push (.diverge (h.w.pushOwner h.k) (h.pc + 8) F J (h.w.exec h.k))).goTo h.k target).setSlot h.k
        (fun p => PathSlot.behind { p with exec := T } s.nextId))))

/-- BRA.any (R147 kind 1): the whole slot, if any thread is covered. -/
def execBraAny (g : Guard) (tgt : BitVec 24) (s : State) : Host.Outcome State Fault Refusal :=
  s.word (fun h => .ok (s.putWave h (if h.cov g = 0 then h.w.advance h.k else h.w.goTo h.k (branchTo h.pc tgt))))

/-- The guard is true for some threads of EXEC and false for others (R146). -/
def Here.split (h : Here) (g : Guard) : Bool := h.cov g != 0 && h.cov g != h.w.exec h.k

/-- BRX (R149). -/
def execBrx (g : Guard) (va : Reg) (s : State) : Host.Outcome State Fault Refusal :=
  s.word (fun h => do
    if h.cov g = 0 then .ok (s.putWave h (h.w.advance h.k))
    else if h.split g then .error h.structure
    else
      let a ← h.w.agree64 (h.cov g) va.toNat
      if codeAddrOk a then .ok (s.putWave h (h.w.goTo h.k a))
      else .error (Trap.named h.w .misaligned (h.cov g) (pairReg va (a.extractLsb' 0 3 == 0)) a))

/-- JOIN (R148). -/
def execJoin (s : State) : Host.Outcome State Fault Refusal :=
  s.word (fun h =>
    let J := h.pc
    let k := h.k
    if h.w.slots[k].pair = some J then
      if h.w.slots[k].hold ≠ 0 then .error h.structure
      else if h.w.otherLive k then
        if h.w.owns k then .error h.structure
        else
          let w1 := h.w.setSlot k (fun p => { p with wait := some .join, starved := 0, yielded := false })
          .ok (s.putWave h (if w1.slots[otherSlot k].wait = some .join then w1.merge s.nextId else w1))
      else .ok (s.putWave h (h.w.mergeAlone k J s.nextId))
    else
      match h.w.topIndex k with
      | none => .ok (s.putWave h (h.w.advance k))
      | some i =>
        match h.w.stack[i]? with
        | some (.diverge _ _ _ j _) =>
          if j ≠ J then .ok (s.putWave h (h.w.advance k))
          else if h.w.slots[k].hold ≠ 0 then .error h.structure
          else
            match (h.w.goTo k J).takeEntry k i s.nextId with
            | some w1 => .ok (s.putWave h (w1.emptied k (J + 8) s.nextId))
            | none => .ok (s.putWave h (h.w.advance k))
        | _ => .ok (s.putWave h (h.w.advance k)))

/-- CALL (R150). -/
def execCall (g : Guard) (tgt : BitVec 24) (s : State) : Host.Outcome State Fault Refusal :=
  s.word (fun h =>
    if h.cov g = 0 then .ok (s.putWave h (h.w.advance h.k))
    else if h.split g ∨ h.w.slots[h.k].hold ≠ 0 ∨ h.w.stackFull then .error h.structure
    else .ok (s.putWave h ((h.w.push (.call (h.w.pushOwner h.k) (h.pc + 8))).goTo h.k (branchTo h.pc tgt))))

/-- RET (R150): the visible top must be a call entry, and not a shared one while the other slot lives (R146). -/
def execRet (g : Guard) (s : State) : Host.Outcome State Fault Refusal :=
  s.word (fun h =>
    if h.cov g = 0 then .ok (s.putWave h (h.w.advance h.k))
    else if h.split g ∨ h.w.slots[h.k].hold ≠ 0 then .error h.structure
    else
      match h.w.topIndex h.k with
      | none => .error h.structure
      | some i =>
        match h.w.stack[i]? with
        | some (.call o r) =>
          if o = .shared ∧ h.w.otherLive h.k then .error h.structure
          else .ok (s.putWave h ((h.w.popAt i).goTo h.k r))
        | _ => .error h.structure)

/-- A memory word of a wave has not been performed yet. -/
def State.unperformed (s : State) (core ctx wv : Nat) : Bool :=
  ((s.core core).log ++ (s.core core).reqs).any (fun e => e.2.ctx == ctx && e.2.wave == wv && !e.2.performed)

/-- Every memory word that comes before the slot's next one has been performed. -/
def State.pathPerformed (s : State) (h : Here) : Bool :=
  !((s.core h.g.core).log ++ (s.core h.g.core).reqs).any (fun e =>
    e.2.ctx == h.ctx && e.2.wave == h.wv && !e.2.performed && (h.w.slots[h.k]).follows e.1 e.2)

/-- EXIT (R151): an undelivered fault of the wave is delivered first (R299); the ending word waits for replies (R380) and for the
wave's memory words, which may still raise a trap, and any other for the slot's own, since it arrives at barriers (R178, R258, R263). -/
def execExit (g : Guard) (s : State) : Host.Outcome State Fault Refusal :=
  s.word (fun h =>
    let gone := h.cov g
    if gone = 0 then .ok (s.putWave h (h.w.advance h.k))
    else
      match (if h.w.endsAll gone then h.w.firstFault (fun _ => true) else none) with
      | some f => .ok (s.deliverFault h f)
      | none =>
        if (h.w.endsAll gone && (s.unanswered h.ctx h.wv h.w.slots[h.k] || s.unperformed h.g.core h.ctx h.wv)) ||
          !s.pathPerformed h then .ok (s.putWave h (h.w.stallAt h.k .stall))
        else
          let w1 := h.w.exitThreads gone
          let w2 := if w1.exec h.k = 0 then w1.emptied h.k (h.pc + 8) s.nextId else w1.advance h.k
          .ok ((s.putWave h w2).afterGone h.ctx h.wv gone))

/-- YIELD (R152): the slot is not selected in this core clock and the next one, and ranks as the youngest until it issues. -/
def execYield (_g : Guard) (s : State) : Host.Outcome State Fault Refusal :=
  s.word (fun h => .ok (s.putWave h ((h.w.advance h.k).setSlot h.k (fun p => { p with yielded := true, rest := 2 }))))

/-- The threads leave EXEC for HOLD unless EXEC would be empty (R153). -/
def State.setAside (s : State) (h : Here) (k : Mask) : Except Trap State :=
  if h.w.exec h.k &&& ~~~k = 0 then .error h.structure
  else .ok (s.putWave h ((h.w.advance h.k).setSlot h.k (fun p => { p with exec := p.exec &&& ~~~k, hold := p.hold ||| k })))

/-- SETEX.p (R153). -/
def execSetexP (g : Guard) (pc : PredNo) (s : State) : Host.Outcome State Fault Refusal :=
  s.word (fun h => s.setAside h (h.cov g &&& ~~~(h.w.predMask pc)))

/-- SETEX.v (R153). -/
def execSetexV (g : Guard) (va : Reg) (s : State) : Host.Outcome State Fault Refusal :=
  s.word (fun h => do
    let m ← h.w.agree (h.cov g) va.toNat
    s.setAside h (h.cov g &&& ~~~m))

/-- SETEX.rst (R153). -/
def execSetexRst (s : State) : Host.Outcome State Fault Refusal :=
  s.word (fun h => .ok (s.putWave h ((h.w.advance h.k).setSlot h.k (fun p => { p with exec := p.exec ||| p.hold, hold := 0 }))))

/-- GETEX (R153). -/
def execGetex (g : Guard) (vd : Reg) (h : Bool) (s : State) : Host.Outcome State Fault Refusal :=
  s.waveWord (fun c =>
    c.w.writeLanes (c.cov g) vd.toNat .none (fun _ => if h then c.w.slots[c.k].hold else c.w.exec c.k))

/-- PLOP (R154). -/
def execPlop (g : Guard) (pd pa pb pc : PredNo) (lut : BitVec 8) (s : State) : Host.Outcome State Fault Refusal :=
  s.waveWord (fun h =>
    h.w.setPred pd (h.cov g) (Mask.ofPred (fun t => lutBit lut (h.w.pred pa t) (h.w.pred pb t) (h.w.pred pc t))))

/-- P2V (R154). -/
def execP2v (g : Guard) (vd : Reg) (s : State) : Host.Outcome State Fault Refusal :=
  s.waveWord (fun h =>
    h.w.writeLanes (h.cov g) vd.toNat .none (fun t =>
      BitVec.ofNat 32 ((List.range 8).foldl (fun x i => x + (if h.w.pred (BitVec.ofNat 3 i) t then 2 ^ i else 0)) 0)))

/-- V2P (R154). -/
def execV2p (g : Guard) (va : Reg) (mask : BitVec 7) (s : State) : Host.Outcome State Fault Refusal :=
  s.waveWord (fun h =>
    (List.range 7).foldl (fun w i =>
      if mask.getLsbD i then
        w.setPred (BitVec.ofNat 3 i) (h.cov g) (Mask.ofPred (fun t => (h.w.read va.toNat t).getLsbD i))
      else w) h.w)

/-! ## SPAWN and bins (R155, R235) -/

/-- The bin of a key that still takes threads, one whose timer expires in this core clock among them (R236); the groups of a core have
bins of their own (log entry 64). -/
def Core.openBin (c : Core) (ctx : Nat) (key : Addr) : Option Nat :=
  c.bins.findIdx? (fun b => b.key == key && b.ctx == ctx && (!b.launching || b.since == c.clock.toNat) && decide (b.threads.length < 32))

/-- A bin is to launch: it was filled, or its timer expired, in a core clock (R236). -/
def Bin.fill (b : Bin) (order clock : Nat) : Bin := if b.launching then b else { b with launching := true, since := clock, order := order }

/-- The next number in the launch order of a core's bins. -/
def Core.nextLaunch (c : Core) : Nat := c.bins.foldl (fun n b => max n (b.order + 1)) 0

/-- One thread of a wave appended to the bin of its key; `none` when the key has no open bin and all eight are in use. -/
def Core.append (c : Core) (ctx wv uid : Nat) (key : Addr) (a b : Word) : Option Core :=
  match c.openBin ctx key with
  | some i =>
    some { c with bins := c.bins.modify i (fun x =>
      let y := { x with threads := x.threads ++ [(a, b, uid)] }
      if y.threads.length = 32 then y.fill c.nextLaunch c.clock.toNat else y) }
  | none =>
    if c.bins.length < Config.binsPerCore then
      some { c with bins := c.bins ++ [⟨key, ctx, wv, [(a, b, uid)], 0, false, 0, 0⟩] }
    else none

/-- The threads of a mask appended in ascending order, until no bin takes the next: the core, and the threads left. -/
def Core.appendAll (c : Core) (ctx wv : Nat) (w : Wave) (va vb vc : Nat) : List Lane → Core × Mask
  | [] => (c, 0)
  | t :: ts =>
    match c.append ctx wv w.uid (w.read64 va t) (w.read vb t) (w.read vc t) with
    | some c1 => c1.appendAll ctx wv w va vb vc ts
    | none => (c, (t :: ts).foldl (fun m q => m ||| BitVec.ofNat 32 (2 ^ q.val)) 0)

/-- A slot other than the issuing one has a SPAWN part-way on the core: its threads are appended consecutively, so the issuing slot's
come after them (R235; log entry 82). -/
def State.spawnUnderWay (s : State) (h : Here) : Bool :=
  (s.onCore h.g.core).any (fun g => g.2.waves.zipIdx.any (fun (w, i) =>
    (List.finRange 2).any (fun k => w.slots[k].spawned != 0 && !(g.1 == h.ctx && i == h.wv && k == h.k)) ||
    w.block.any (fun b => b.slots.toList.any (fun p => p.spawned != 0))))

/-- SPAWN (R155): alignment, then the kernel's code, then the appends in ascending thread order. It waits for the slot's earlier
accesses, which it releases, and for another SPAWN of the core that is part-way (R235). Where a key finds no bin and all eight are in use it
stalls, with the threads appended so far in `PathSlot.spawned`, and goes on with the next thread when a bin has launched. -/
def execSpawn (g : Guard) (va vb vc : Reg) (s : State) : Host.Outcome State Fault Refusal :=
  s.word (fun h =>
    let cov := h.cov g
    let addr (t : Lane) : Addr := h.w.read64 va.toNat t
    let mis := Mask.ofPred (fun t => Mask.has cov t && decide ((addr t).toNat % 8 ≠ 0))
    let out := Mask.ofPred (fun t => Mask.has cov t && !(decide (h.g.image.code.toNat ≤ (addr t).toNat) &&
      decide ((addr t).toNat < h.g.image.code.toNat + h.g.image.codeLen)))
    if cov ≠ 0 ∧ h.w.halt = .handler then .error h.structure
    else if mis ≠ 0 then .error (Trap.named h.w .misaligned mis va.toNat (addr (Mask.lowest mis)))
    else if out ≠ 0 then .error (Trap.named h.w .permission out va.toNat (addr (Mask.lowest out)))
    else
      if !s.pathPerformed h || s.spawnUnderWay h then .ok (s.putWave h (h.w.stallAt h.k .stall))
      else
        let todo := cov &&& ~~~h.w.slots[h.k].spawned
        let (c1, left) := (s.core h.g.core).appendAll h.ctx h.wv h.w va.toNat vb.toNat vc.toNat (Mask.lanes todo)
        let s1 := s.modCore h.g.core (fun _ => c1)
        if left = 0 then .ok (s1.putWave h (h.w.advance h.k))
        else .ok (s1.putWave h ((h.w.stallAt h.k .stall).setSlot h.k (fun p => { p with spawned := cov &&& ~~~left }))))

end Sys2Proof.Machine
end

