-- ==== Sys2Proof/Machine/Sync.lean ====
section
/-! DEFINITION. The barrier words BAR and BARTX (R177–R183, R298, R299). -/

namespace Sys2Proof.Machine

/-- The key of a wave's last arrival at a barrier. -/
def arrivalKey (level : Level) (home index : Nat) : Nat :=
  home * 64 + (match level with | .wave => 0 | .block => 16 | .cluster => 32 | .grid => 48) + index

/-- A handler names a barrier, or the level is one the wave has no barrier of (R181, R298). -/
def Here.levelMisuse (h : Here) (level : Level) : Bool :=
  h.w.halt == .handler ||
  match level with
  | .wave => false
  | .block => h.w.spawned
  | .cluster => h.w.spawned || h.g.image.clusterN == 0
  | .grid => h.w.spawned || !h.g.image.persistent

/-- A fault that a BAR.sync or BAR.wait delivers: of a retired batch, or of a copy that names the block barrier (R184, R198). -/
def barCovers (w : Wave) (level : Level) (index : BitVec 4) (f : AsyncFault) : Bool :=
  match f.cover with
  | .batch n => decide ((w.retired - n).toNat < 2 ^ 15)
  | .channel _ => level == .block && f.bar == some index
  | .coll _ => false
  | .launch _ => false

/-- The asynchronous fault a wait delivers before it takes any effect (R183, R299). -/
def State.barFault (s : State) (h : Here) (level : Level) (index : BitVec 4) : Option State :=
  match h.w.firstFault (barCovers h.w level index) with
  | some f => some (s.deliverFault h f)
  | none =>
    if level == .block && (s.bar .block h.ctx index.toNat).overflow then some (s.deliverOverflow h index.toNat) else none

/-- The barriers the issuing word's threads name. -/
def Here.homes (h : Here) (level : Level) (m : Mask) : List Nat := barHomes h.ctx h.g h.w level m

/-- The threads of a mask that name a barrier. -/
def Here.atHome (h : Here) (level : Level) (m : Mask) (home : Nat) : Mask :=
  Mask.ofPred (fun t => Mask.has m t && barHome h.ctx h.g h.w level t == home)

/-- A covered thread has arrived already, or the phase has another fuse (R181). -/
def State.arrivalMisuse (s : State) (h : Here) (level : Level) (index : Nat) (cov : Mask) (fuse : Option Fuse) : Bool :=
  (h.homes level cov).any (fun home =>
    let b := s.barSeen level home index
    (b.of (waveKey h.ctx h.w.uid) &&& h.atHome level cov home) != 0 || b.kind.any (fun k => k != fuse))

/-- The threads of the issuing word arrive at a barrier, and may complete its phase; at a cluster or grid barrier once the word is old
enough to leave its core (R178, R307). -/
def State.arriveAt (s : State) (h : Here) (level : Level) (home index : Nat) (m : Mask) (fuse : Option Fuse) (vals : List Word) : State :=
  let key := waveKey h.ctx h.w.uid
  let now (s : State) : State := (s.arrive level home index key m fuse vals).settleBar level home index
  match level with
  | .wave | .block => now s
  | .cluster | .grid => s.post h.g.core (.arrival level home index (s.bar level home index).phase key m fuse vals) now

/-- Covered threads arrive, the slot left as given; then the phases that this completes (R178–R180). -/
def State.arriveAll (s : State) (h : Here) (level : Level) (index : Nat) (cov : Mask) (fuse : Option Fuse) (vals : Lane → Word)
    (slot : Wave → Wave) : State :=
  let homes := h.homes level cov
  let w1 := slot { h.w with
    lastArrival := homes.foldl (fun m home => Map.insert m (arrivalKey level home index) (s.bar level home index).phase) h.w.lastArrival }
  let s1 := s.modWave h.ctx h.wv (fun w => { w with slots := w1.slots, lastArrival := w1.lastArrival })
  homes.foldl (fun s home =>
    let mine := h.atHome level cov home
    s.arriveAt h level home index mine fuse (if fuse.isNone then [] else (Mask.lanes mine).map vals)) s1

/-- BAR.sync (R179, R180). -/
def execBarSync (g : Guard) (vd va : Reg) (level : Level) (index : BitVec 4) (fuse : Option Fuse) (s : State) :
    Host.Outcome State Fault Refusal :=
  s.act (fun h =>
    let cov := h.cov g
    if cov = 0 then s.putWave h (h.w.advance h.k)
    else if h.levelMisuse level then s.takeTrap h (Trap.of .barrierMisuse cov)
    else
      match s.barFault h level index with
      | some s1 => s1
      | none =>
        if s.arrivalMisuse h level index.toNat cov fuse then s.takeTrap h (Trap.of .barrierMisuse cov)
        else if !s.slotQuiet h then s.putWave h (h.w.stallAt h.k .stall)
        else
          let units := (h.homes level cov).map (fun home => (home, (s.bar level home index.toNat).phase))
          let value (t : Lane) : Word := match fuse with
            | none => 0
            | some f => redIn f.op h.w.fpctl (h.w.read va.toNat t)
          s.arriveAll h level index.toNat cov fuse value (fun w =>
            w.stallAt h.k (.barrier level index.toNat units (fuse.map (fun _ => (vd, cov))))))

/-- BAR.arr (R179). -/
def execBarArr (g : Guard) (level : Level) (index : BitVec 4) (s : State) : Host.Outcome State Fault Refusal :=
  s.act (fun h =>
    let cov := h.cov g
    if cov = 0 then s.putWave h (h.w.advance h.k)
    else if h.levelMisuse level || s.arrivalMisuse h level index.toNat cov none then s.takeTrap h (Trap.of .barrierMisuse cov)
    else if !s.slotQuiet h then s.putWave h (h.w.stallAt h.k .stall)
    else s.arriveAll h level index.toNat cov none (fun _ => 0) (fun w => w.advance h.k))

/-- BAR.wait (R179): it waits whatever threads it covers; only its misuse needs a covered thread (R291). -/
def execBarWait (g : Guard) (level : Level) (index : BitVec 4) (s : State) : Host.Outcome State Fault Refusal :=
  s.act (fun h =>
    let cov := h.cov g
    let misuse : State := if cov = 0 then s.putWave h (h.w.advance h.k) else s.takeTrap h (Trap.of .barrierMisuse cov)
    if h.levelMisuse level then misuse
    else
      match s.barFault h level index with
      | some s1 => s1
      | none =>
        let arrived := (h.homes level (if cov = 0 then h.w.exec h.k else cov)).filterMap (fun home =>
          (Map.find h.w.lastArrival (arrivalKey level home index.toNat)).map (fun p => (home, p)))
        let open_ := arrived.filter (fun u => decide ((s.bar level u.1 index.toNat).phase ≤ u.2))
        if arrived.isEmpty then misuse
        else if open_.isEmpty then s.putWave h (h.w.advance h.k)
        else s.putWave h (h.w.stallAt h.k (.barrier level index.toNat open_ none)))

/-- BAR.exp (R179): the arrivals so far may complete the phase. -/
def execBarExp (g : Guard) (va : Reg) (index : BitVec 4) (s : State) : Host.Outcome State Fault Refusal :=
  s.act (fun h =>
    let cov := h.cov g
    if cov = 0 then s.putWave h (h.w.advance h.k)
    else if h.levelMisuse .wave then s.takeTrap h (Trap.of .barrierMisuse cov)
    else
      match h.w.agree cov va.toNat with
      | .error t => s.takeTrap h t
      | .ok n =>
        (h.homes .wave cov).foldl (fun s home =>
          (s.modBar .wave home index.toNat (fun b => { b with exp := b.exp + n.toNat })).settleBar .wave home index.toNat)
          (s.putWave h (h.w.advance h.k)))

/-- BARTX (R182, R183). -/
def execBartx (g : Guard) (va : Reg) (index : BitVec 4) (arr : Bool) (s : State) : Host.Outcome State Fault Refusal :=
  s.act (fun h =>
    let cov := h.cov g
    if cov = 0 then s.putWave h (h.w.advance h.k)
    else if h.levelMisuse .block then s.takeTrap h (Trap.of .barrierMisuse cov)
    else
      match h.w.agree cov va.toNat with
      | .error t => s.takeTrap h t
      | .ok n =>
        let tx := (s.bar .block h.ctx index.toNat).tx + n.toInt
        if arr && s.arrivalMisuse h .block index.toNat cov none then s.takeTrap h (Trap.of .barrierMisuse cov)
        else if tx < txMin ∨ txMax < tx then s.takeTrap h (Trap.named h.w .barrierMisuse cov va.toNat 0)
        else if arr && !s.slotQuiet h then s.putWave h (h.w.stallAt h.k .stall)
        else
          let s1 := s.modBar .block h.ctx index.toNat (fun b => { b with tx := tx })
          if arr then s1.arriveAll h .block index.toNat cov none (fun _ => 0) (fun w => w.advance h.k)
          else (s1.putWave h (h.w.advance h.k)).settleBar .block h.ctx index.toNat)

end Sys2Proof.Machine
end

