-- ==== Sys2Proof/Machine/System.lean ====
section
/-! DEFINITION. The system group: TRAP to LSUPD, the special registers, the return from a trap, generation bumps, and the
debug agent (R23–R27, R217–R230, R300, R361–R363). -/

namespace Sys2Proof.Machine

/-- A privileged word: in unprivileged code it raises PRIVILEGE whatever it covers (R193). -/
def State.privileged (s : State) (f : Here → State) : Host.Outcome State Fault Refusal :=
  s.act (fun h => if h.g.priv then f h else s.takeTrap h (Trap.of .privilege (h.w.exec h.k)))

/-- A word that goes on. -/
def State.goesOn (s : State) (h : Here) : State := s.putWave h (h.w.advance h.k)

/-! ## TRAP and BPT (R218) -/

/-- A trap with a code, if any thread is covered. -/
def State.softTrap (s : State) (g : Guard) (cause : Cause) (code : BitVec 16) : Host.Outcome State Fault Refusal :=
  s.act (fun h =>
    if h.cov g = 0 then s.goesOn h else s.takeTrap h { Trap.of cause (h.cov g) with addr := code.setWidth 64 })

/-- TRAP (R218). -/
def execTrap (g : Guard) (code : BitVec 16) (s : State) : Host.Outcome State Fault Refusal := s.softTrap g .software code

/-- BPT (R218). -/
def execBpt (g : Guard) (code : BitVec 16) (s : State) : Host.Outcome State Fault Refusal := s.softTrap g .breakpoint code

/-! ## RTT (R219, R300) -/

/-- The log entry of the trapping word, if the log still holds it. -/
def State.trapEntry (s : State) (core : Nat) (b : Block) : Option (Nat × MemWord) :=
  b.entry.bind (fun id => (Map.find (s.core core).log id).map (fun m => (id, m)))

/-- The trapping slot goes on at an address, with the wait it had when the address is the continuation point. -/
def Block.at_ (b : Block) (a : Addr) (keep : Bool) : Block :=
  let p := b.slots[b.trapSlot]
  { b with slots := b.slots.set b.trapSlot { p with
      pc := a, wait := if keep then p.wait else none, starved := 0, yielded := false, spawned := if a = p.pc then p.spawned else 0, got := [] } }

/-- A trapped wave resumes from its block, its siblings with it, each from its own (R240, R294). -/
def State.resumeWave (s : State) (h : Here) (b : Block) : State :=
  (s.checkBlocks h.ctx).modGroup h.ctx (fun g => (g.setWave h.wv (h.w.goOn b s.nextId)).releaseSiblings s.nextId)

/-- A log entry goes on waiting: its give-up is forgotten, and RTT issues it anew, so that it leaves the core 40 clocks later (R307). -/
def State.unpark (s : State) (core id : Nat) : State :=
  s.modCore core (fun c => { c with log := Map.modify c.log id (fun m => { m with gaveUp := none, parked := false, issued := c.clock.toNat }) })

/-- A log entry is discarded: the word has no further effect, but lanes that peers have not answered keep it among the words in
flight, since they may fail in their turn (R300, R386). -/
def State.discardWord (s : State) (core id : Nat) : State :=
  match Map.find (s.core core).log id with
  | none => s
  | some m =>
    let s1 := s.modCore core (fun c => c.dropWord id)
    if s.awaited core id = 0 then s1
    else
      let m1 := { m with spec := { m.spec with dests := [] }, parked := false, gaveUp := none }
      s1.modCore core (fun c => { c with reqs := Map.insert c.reqs id m1 })

/-- RTT from a wave's block (R300). -/
def State.rtt (s : State) (h : Here) (b : Block) : State :=
  let T := h.w.frame.pc
  let core := h.g.core
  match s.trapEntry core b with
  | none => s.resumeWave h (b.at_ T false)
  | some (id, m) =>
    if T = m.pc then ((s.resumeWave h (b.at_ b.cont true)).unpark core id).replay core id
    else
      let s1 := s.discardWord core id
      if T = m.pc + 8 then s1.resumeWave h (b.at_ b.cont true) else s1.resumeWave h (b.at_ T false)

/-- RTT (R219): its block comes back from the save area (R240). -/
def execRtt (_g : Guard) (s : State) : Host.Outcome State Fault Refusal :=
  s.act (fun h =>
    match h.w.halt, h.w.block with
    | .handler, some b =>
      if codeAddrOk h.w.frame.pc then s.rtt h (s.checkBlock h.g h.wv b)
      else s.takeTrap h { Trap.of .misaligned (h.w.exec h.k) with addr := h.w.frame.pc }
    | _, _ => s.takeTrap h (Trap.of .illegalOpcode (h.w.exec h.k)))

/-- RTT.kill (R219, R300). -/
def execRttKill (_g : Guard) (s : State) : Host.Outcome State Fault Refusal :=
  s.act (fun h =>
    if h.w.halt = .handler then s.rttKill h.ctx h.wv h.g h.w else s.takeTrap h (Trap.of .illegalOpcode (h.w.exec h.k)))

/-! ## Special registers (R23–R27, R221–R223) -/

/-- PATHS as a slot reads it (R25). -/
def Wave.paths (w : Wave) (k : Fin 2) : Word :=
  BitVec.ofNat 32 (w.onChip + (if w.spilled = 0 then 0 else 64) + 256 * k.val + (if w.otherLive k then 512 else 0) +
    (if w.deadsrc then 65536 else 0))

/-- The low and the high half of a 64-bit value. -/
def halfWord (x : BitVec 64) (high : Bool) : Word := if high then x.extractLsb' 32 32 else x.extractLsb' 0 32

/-- What a special register gives a thread; `none` for a number that the tables do not assign. -/
def State.sysRead (s : State) (h : Here) (n : Nat) (t : Lane) : Option Word :=
  let c := s.core h.g.core
  let f := h.w.frame
  let num (x : Nat) : Word := BitVec.ofNat 32 x
  match n with
  | 0x000 => some (num ((if h.w.z5 then 16 else 32) * h.wv + t.val))
  | 0x001 => some (num h.wv)
  | 0x002 => some h.g.grp[0]
  | 0x003 => some h.g.grp[1]
  | 0x004 => some h.g.grp[2]
  | 0x005 => some h.g.ngrp[0]
  | 0x006 => some h.g.ngrp[1]
  | 0x007 => some h.g.ngrp[2]
  | 0x008 => some (num h.g.gsize)
  | 0x009 => some (num h.g.core)
  | 0x00A => some (num (clusterOf h.g.core))
  | 0x00B => some (num h.w.role.val)
  | 0x00C => some (h.w.exec h.k)
  | 0x00D => some (h.w.paths h.k)
  | 0x00E => some (halfWord c.clock false)
  | 0x00F => some (halfWord c.clock true)
  | 0x010 => some h.g.lscale
  | 0x011 => some h.g.ovfl
  | 0x012 => some h.w.fpctl
  | 0x013 => some (halfWord h.g.args false)
  | 0x014 => some (halfWord h.g.args true)
  | 0x015 => some h.w.dead
  | 0x020 => some f.cause
  | 0x021 => some (halfWord f.pc false)
  | 0x022 => some (halfWord f.pc true)
  | 0x023 => some f.mask
  | 0x024 => some f.thread
  | 0x025 => some f.telem
  | 0x026 => some (halfWord f.addr false)
  | 0x027 => some (halfWord f.addr true)
  | 0x028 => some f.skid
  | 0x029 => some f.count
  | 0x100 => some (num ((if h.g.priv then 1 else 0) + (if h.g.test then 2 else 0)))
  | 0x101 => some (num h.ctx)
  | 0x102 => some (num h.g.part)
  | 0x103 => some ((s.part h.g.part).primary.setWidth 32)
  | 0x104 => some (h.g.asid.setWidth 32)
  | 0x105 => some ((s.gen h.g.asid.toNat).setWidth 32)
  | 0x106 => some (c.orgR.setWidth 32 ||| c.orgC.setWidth 32 <<< 8 ||| num (65536 * c.spares))
  | 0x107 => some (c.ratio.setWidth 32)
  | 0x108 => some (halfWord h.g.savea false)
  | 0x109 => some (halfWord h.g.savea true)
  | 0x10A => some s.epoch
  | 0x10B => some (h.w.batch.setWidth 32 ||| h.w.retired.setWidth 32 <<< 16)
  | 0x10C => some (h.g.lscnt.setWidth 32)
  | _ => none

/-- The registers software may write: EXEC, PATHS, LSCALE, OVFL, FPCTL, TPC, TPCH, LSCNT. -/
def sysWritable (n : Nat) : Bool := [0x00C, 0x00D, 0x010, 0x011, 0x012, 0x021, 0x022, 0x10C].contains n

/-- The trap of a special-register number: PRIVILEGE, then ILLEGAL_OPCODE (R23, R221). -/
def State.sysTrap (s : State) (h : Here) (n : Nat) (write : Bool) : Option Trap :=
  if 0x100 ≤ n ∧ !h.g.priv then some (Trap.of .privilege (h.w.exec h.k))
  else if (s.sysRead h n 0).isNone || (write && !sysWritable n) then some (Trap.of .illegalOpcode (h.w.exec h.k))
  else none

/-- A value written to a special register of the wave, whose bits that are not writable keep their value (R18, R25, R26, R221). -/
def Wave.sysWrite (w : Wave) (k : Fin 2) (n : Nat) (v : Word) : Wave :=
  match n with
  | 0x00C => w.setSlot k (fun p => { p with exec := p.exec &&& v })
  | 0x00D => { w with deadsrc := w.deadsrc && !v.getLsbD 16 }
  | 0x012 => { w with fpctl := v &&& 3 }
  | 0x021 => { w with frame := { w.frame with pc := w.frame.pc.extractLsb' 32 32 ++ v } }
  | 0x022 => { w with frame := { w.frame with pc := v ++ w.frame.pc.extractLsb' 0 32 } }
  | _ => w

/-- A value written to a special register of the group (R27, R221); an OVFL bit set in the same core clock stays (R100). -/
def Group.sysWrite (g : Group) (n : Nat) (v : Word) : Group :=
  match n with
  | 0x010 => { g with lscale := v }
  | 0x011 => { g with ovfl := g.ovfl &&& (~~~(v &&& 15) ||| g.ovflNow) }
  | 0x10C => { g with lscnt := v.setWidth 16 }
  | _ => g

/-- The tag of a special register's value under full cover: TID runs with the thread, any other is one value (R23, R244). -/
def sysTag (n : Nat) : Tag := if n = 0 then .affine else .uniform

/-- SYSRD (R220). -/
def execSysrd (g : Guard) (vd : Reg) (n : BitVec 16) (s : State) : Host.Outcome State Fault Refusal :=
  s.word (fun h =>
    match s.sysTrap h n.toNat false with
    | some t => .error t
    | none => .ok (s.putWave h ((h.w.writeLanes (h.cov g) vd.toNat (sysTag n.toNat) (fun t => (s.sysRead h n.toNat t).getD 0)).advance h.k)))

/-- SYSWR (R220): a write that would empty EXEC changes nothing (R18). -/
def execSyswr (g : Guard) (va : Reg) (n : BitVec 16) (s : State) : Host.Outcome State Fault Refusal :=
  s.word (fun h =>
    match s.sysTrap h n.toNat true with
    | some t => .error t
    | none =>
      if h.cov g = 0 then .ok (s.goesOn h)
      else do
        let v ← h.w.agree (h.cov g) va.toNat
        if n = 0x00C ∧ h.w.exec h.k &&& v = 0 then .error h.structure
        else .ok (s.modGroup h.ctx (fun x => (x.setWave h.wv ((h.w.sysWrite h.k n.toNat v).advance h.k)).sysWrite n.toNat v)))

/-! ## PREEMPT, EVREC, SLEEP (R224, R225, R227) -/

/-- PREEMPT.off (R224): no effect with a budget of 0, in the held state, or once a stop is under way. -/
def execPreemptOff (_g : Guard) (s : State) : Host.Outcome State Fault Refusal :=
  s.act (fun h =>
    let s1 := s.goesOn h
    if h.g.budget = 0 ∨ h.g.held.isSome ∨ h.g.stop.isSome then s1
    else s1.modGroup h.ctx (fun g => { g with held := some s.now }))

/-- PREEMPT.on (R224). -/
def execPreemptOn (_g : Guard) (s : State) : Host.Outcome State Fault Refusal :=
  s.act (fun h => if h.g.held.isSome then (s.goesOn h).endHold h.ctx else s.goesOn h)

/-- EVREC (R225). -/
def execEvrec (g : Guard) (va : Reg) (code : BitVec 16) (s : State) : Host.Outcome State Fault Refusal :=
  s.word (fun h =>
    if h.cov g = 0 then .ok (s.goesOn h)
    else do
      let v ← h.w.agree (h.cov g) va.toNat
      .ok ((s.goesOn h).castGroup h.ctx h.g
        { cls := 0x09, cause := code.toNat % 256, addr := code.setWidth 64, data := v, wave := h.wv }))

/-- SLEEP (R227). -/
def execSleep (_g : Guard) (n : BitVec 16) (s : State) : Host.Outcome State Fault Refusal :=
  s.act (fun h => if n = 0 then s.goesOn h else s.putWave h (h.w.stallAt h.k (.sleep n.toNat)))

/-! ## HALT and the debug agent (R226) -/

/-- The wave halted by a slot's HALT: TPC and TMASK, its path state set aside, a handler's left in place. -/
def Wave.halted (w : Wave) (k : Fin 2) : Wave :=
  let inHandler := w.halt == .handler
  { w with
    frame := { w.frame with pc := w.slots[k].pc, mask := w.exec k }
    block := if inHandler then w.block else some ⟨w.slots, w.stack, w.spilled, k, w.slots[k].pc + 8, none, 0, true, none, none, none⟩
    halt := .debug k inHandler }

/-- HALT (R226): a wave that a halt has reached stops as a sibling. -/
def execHalt (_g : Guard) (s : State) : Host.Outcome State Fault Refusal :=
  s.privileged (fun h =>
    match h.w.halt with
    | .skid words clocks => s.putWave h (h.w.stopSibling (some h.k) words clocks)
    | .coming => s.putWave h (h.w.stopSibling (some h.k) 0 0)
    | .running | .stopped | .trapped _ _ | .handler | .debug _ _ =>
      s.modGroup h.ctx (fun g => (g.setWave h.wv (h.w.halted h.k)).broadcast h.wv))

/-- A wave that the debug agent resumes, at TPC + 8. -/
def Wave.undebug (w : Wave) (n : Nat) : Wave :=
  match w.halt, w.block with
  | .debug k true, _ => { w.goTo k (w.frame.pc + 8) with halt := .handler }
  | .debug k false, some b => w.goOn { b with slots := b.slots.set k { b.slots[k] with pc := w.frame.pc + 8 } } n
  | _, _ => w

/-- A wave stands in HALT. -/
def Halt.isDebug : Halt → Bool
  | .debug _ _ => true
  | .running | .coming | .skid _ _ | .stopped | .trapped _ _ | .handler => false

/-- DEBUG_AGENT_RESUME (R226): the group goes on, or is killed. -/
def execDebugAgentResume (ctx : Nat) (kill : Bool) (s : State) : Host.Outcome State Fault Refusal :=
  match Map.find s.groups ctx with
  | none => .next s
  | some g =>
    match g.waves.find? (fun w => w.halt.isDebug) with
    | none => .next s
    | some w =>
      s.event (!g.halting)
        (if kill then s.killGroup ctx 2 w.frame.cause.toNat
         else (s.checkBlocks ctx).modGroup ctx (fun g =>
          let g1 := { g with waves := g.waves.map (fun w => w.undebug s.nextId) }
          if g1.waves.any (fun w => w.halt = .handler) then g1 else g1.releaseSiblings s.nextId))

/-! ## ICINV and TLBINV (R228) -/

/-- ICINV (R228): the 64-byte line of an address of the group's address space, or every line. It comes after the slot's earlier accesses, so
that a fetch after it finds what they have ordered before it (R261, R406). -/
def execIcinv (g : Guard) (va : Reg) (all : Bool) (s : State) : Host.Outcome State Fault Refusal :=
  s.privileged (fun h =>
    let cov := h.cov g
    if cov = 0 then s.goesOn h
    else if !s.pathPerformed h then s.putWave h (h.w.stallAt h.k .stall)
    else if all then (s.goesOn h).modCore h.g.core (fun c => { c with icache := [] })
    else s.orTrap h (do
      let a ← h.w.agree64 cov va.toNat
      .ok ((s.goesOn h).modCore h.g.core (fun c =>
        { c with icache := c.icache.filter (fun e => !(e.1 == h.g.asid && e.2.1.toNat / 64 == a.toNat / 64)) }))))

/-- A cached leaf covers an address. -/
def TlbEntry.holds (e : TlbEntry) (a : Addr) : Bool :=
  (canonical a).any (fun v => decide (e.va ≤ v) && decide (v < e.va + e.size))

/-- TLBINV (R228). -/
def execTlbinv (g : Guard) (va : Reg) (asid : BitVec 16) (all : Bool) (s : State) : Host.Outcome State Fault Refusal :=
  s.privileged (fun h =>
    let cov := h.cov g
    let drop (p : TlbEntry → Bool) : State :=
      (s.goesOn h).modCore h.g.core (fun c => { c with tlb := c.tlb.filter (fun e => !(e.asid == asid && p e)) })
    if cov = 0 then s.goesOn h
    else if all then drop (fun _ => true)
    else s.orTrap h (do
      let a ← h.w.agree64 cov va.toNat
      .ok (drop (fun e => e.holds a))))

/-! ## Generation bumps (R228, R361–R363) -/

/-- A queued lane of an address space is rejected (R363). -/
def State.rejectQueued (s : State) (asid : Nat) : State :=
  { s with remote := s.remote.map (fun o =>
      if o.2.status == .queued && (Map.find s.groups o.2.ctx).any (fun g => g.asid.toNat == asid) then (o.1, { o.2 with gen := none }) else o) }

/-- The generation of an address space advances: at a wrap every cached entry of it goes first, and every request that is still to be sent
is rejected (R363); then ASD.GEN is written. -/
def State.advanceGen (s : State) (part asid : Nat) : State :=
  let new := s.gen asid + 1
  let s1 :=
    if new = 0 then
      ((s.part part).coreList.foldl (fun s c => s.modCore c (fun k => { k with tlb := k.tlb.filter (fun e => e.asid.toNat != asid) })) s).rejectQueued
        asid
    else s
  ({ s1 with gens := Map.set s1.gens asid new 0 }).physWrite part (s.asd part asid + 38) (bytesOf 2 new.toNat)

/-- The oldest bump of an address space completes, at one instant: a PUBL's leaf has its SEL[19] inverted, the generation advances, and the
GENBUMP that waits for it receives the new one (R269, R358). -/
def State.finishBump (s : State) (asid : Nat) : State :=
  match s.bumps.find? (fun b => b.asid == asid) with
  | none => s
  | some b =>
    let s0 := { s with bumps := s.bumps.eraseP (fun x => x.asid == asid) }
    let s1 := (match b.publishes with
      | none => s0
      | some a => s0.physWrite b.part a (bytesOf 8 (s0.physNat b.part a 8 ^^^ 2 ^ 19))).advanceGen b.part asid
    s1.answer b.waiter (fun w => match w with | .bump a => a == asid | _ => false) ((s1.gen asid).setWidth 32)

/-- A bump begins; it is carried to its end at once where nothing stays queued. -/
def State.startBump (s : State) (part asid : Nat) (publishes : Option Nat) (waiter : Option (SlotRef × Reg × Mask)) : State :=
  let s1 := { s with bumps := s.bumps ++ [⟨asid, part, publishes, waiter⟩] }
  if s.deferred then s1 else s1.finishBump asid

/-- The reference of the issuing slot. -/
def Here.ref (h : Here) : SlotRef := ⟨h.ctx, h.wv, h.k.val⟩

/-- No word of the wave is pending and no remote write of it unanswered: the bump comes after all it has accessed (R270). -/
def State.waveQuiet (s : State) (h : Here) : Bool :=
  (s.wavePending h.g.core h.ctx h.wv).isEmpty && h.w.slots.toList.all (fun p => !s.unanswered h.ctx h.wv p)

/-- GENBUMP (R228, R270, R362). -/
def execGenbump (g : Guard) (vd va : Reg) (s : State) : Host.Outcome State Fault Refusal :=
  s.privileged (fun h =>
    let cov := h.cov g
    if cov = 0 then s.goesOn h
    else s.orTrap h (do
      let a ← h.w.agree cov va.toNat
      if !s.asidActive h.g.part a.toNat then .error (Trap.named h.w .permission cov va.toNat 0)
      else if !s.waveQuiet h then .ok (s.putWave h (h.w.stallAt h.k .stall))
      else .ok ((s.putWave h (h.w.stallAt h.k (.bump a.toNat))).startBump h.g.part a.toNat none (some (h.ref, vd, cov)))))

/-- GEN_BUMP_COMPLETE (R362). -/
def execGenBumpComplete (asid : Nat) (s : State) : Host.Outcome State Fault Refusal :=
  s.event (s.bumps.any (fun b => b.asid == asid)) (s.finishBump asid)

/-! ## STEST (R229) -/

/-- STEST (R229); the event of one that is refused holds its result (R422). -/
def execStest (g : Guard) (vd : Reg) (unit : BitVec 16) (s : State) : Host.Outcome State Fault Refusal :=
  s.privileged (fun h =>
    let cov := h.cov g
    let u := unitOf h.g.core unit
    if cov = 0 then s.goesOn h
    else if s.refuses u then
      (s.putWave h ((h.w.writeLanes cov vd.toNat .none (fun _ => 3)).advance h.k)).castUnit u 0x05 3 3
    else
      let s1 := (s.putWave h (h.w.stallAt h.k (.test unit))).startTest u (some (h.ref, vd, cov))
      if s.deferred then s1 else s1.endTest u)

/-! ## LSUPD (R230) -/

/-- The loss scale as LSUPD takes it: 1.0 unless it is a positive finite normal FP32. -/
def lscaleIn (x : Word) : Word := if 0x00800000 ≤ x.toNat ∧ x.toNat < 0x7F800000 then x else 0x3F800000

/-- Half of a positive normal number, at least 2^-126. -/
def lscaleHalf (x : Word) : Word := if x.toNat < 0x01000000 then 0x00800000 else x - 0x00800000

/-- Twice a positive normal number, at most 2^127. -/
def lscaleTwice (x : Word) : Word := if 0x7E800000 ≤ x.toNat then 0x7F000000 else x + 0x00800000

/-- The group's LSCALE, OVFL and LSCNT after one step with count N. -/
def Group.lsupd (g : Group) (n : BitVec 16) : Group :=
  let x := lscaleIn g.lscale
  if g.ovfl &&& 15 ≠ 0 then { g with lscale := lscaleHalf x, lscnt := 0, ovfl := g.ovfl &&& ~~~15 }
  else if n.toNat ≤ g.lscnt.toNat + 1 then { g with lscale := lscaleTwice x, lscnt := 0 }
  else { g with lscale := x, lscnt := g.lscnt + 1 }

/-- LSUPD (R230). -/
def execLsupd (g : Guard) (vd : Reg) (n : BitVec 16) (s : State) : Host.Outcome State Fault Refusal :=
  s.act (fun h =>
    let bad := h.g.ovfl &&& 15 != 0
    let w := (h.w.writeLanes (h.cov g) vd.toNat .none (fun _ => if bad then 0 else 1)).advance h.k
    s.modGroup h.ctx (fun x => (x.setWave h.wv w).lsupd n))

end Sys2Proof.Machine
end

