-- ==== Sys2Proof/Machine/Engine.lean ====
section
/-! DEFINITION. What the engines share: accesses of their own (R184, R303, R357, R360), shape records and boxes (R21, R22,
R186), arbiter requests (R252, R428). -/

namespace Sys2Proof.Machine

/-! ## An engine's accesses -/

/-- A part of what an engine reads that lies in peer memory: its address, window, device address and length. -/
abbrev PeerPart := Addr × Nat × Nat × Nat

/-- Why an engine's access stops: at an address it waits for a fault record, it faults, or it reads what peers have yet to give. -/
inductive EngineStop
  | wait (token : Nat) (addr : Addr)
  | fail (cause : Cause) (addr : Addr)
  | peers (parts : List PeerPart)
  deriving DecidableEq, Repr

/-- A place an engine reads or writes. -/
inductive Spot
  | scratch (a : Word)
  | mem (va : Addr)
  deriving DecidableEq, Repr

/-- The place some bytes further on. -/
def Spot.plus (p : Spot) (n : Nat) : Spot :=
  match p with
  | .scratch a => .scratch (a + BitVec.ofNat 32 n)
  | .mem va => .mem (va + BitVec.ofNat 64 n)

/-- Bytes up to the next 64-byte line. -/
def Spot.toLine : Spot → Nat
  | .scratch a => 64 - a.toNat % 64
  | .mem va => 64 - va.toNat % 64

/-- The address a place names. -/
def Spot.addr : Spot → Addr
  | .scratch a => a.setWidth 64
  | .mem va => va

/-- Who accesses: the core, the context with its group, and the tag a ring leaf selects by (R190). -/
structure Engine where
  core : Nat
  ctx : Nat
  g : Group
  tag : Nat
  deriving DecidableEq, Repr

/-- Where an engine's access of bytes within one line goes (R354, R357, R435). -/
def State.spotAt (s : State) (e : Engine) (need : Need) (p : Spot) (n : Nat) : State × Except EngineStop Target :=
  match p with
  | .scratch a =>
    match s.scratchAt e.ctx e.g a n with
    | some t => (s, .ok t)
    | none => (s, .error (.fail .permission (a.setWidth 64)))
  | .mem va =>
    match canonical va with
    | none => (s, .error (.fail .pageFault va))
    | some v =>
      let (s1, r) := s.translate e.core e.g.part e.g.asid v
      match r with
      | .error .invalid =>
        if s1.hasQueue e.g.part e.g.asid.toNat then
          let (s2, t) := s1.reportFault e.core e.g.part e.g.asid v need
          (s2, .error (.wait t va))
        else (s1, .error (.fail .pageFault va))
      | .error (.poison b) => (s1.poisonMet e.core e.g.part e.g.asid b, .error (.fail .translationPoison va))
      | .error (.beyond a) => ({ s1 with beyond := some (e.g.part, a) }, .error (.fail .pageFault va))
      | .ok l =>
        match s1.granted e.g.part l need e.tag v with
        | none => (s1, .error (.fail .permission va))
        | some t => (s1, .ok t)

/-- The targets of `n` bytes from a place on, line by line; for at most `fuel` lines. -/
def State.spotsAt (s : State) (e : Engine) (need : Need) (p : Spot) (n : Nat) : Nat → State × Except EngineStop (List (Target × Nat))
  | 0 => (s, .ok [])
  | fuel + 1 =>
    if n = 0 then (s, .ok [])
    else
      let k := min n p.toLine
      match s.spotAt e need p k with
      | (s1, .error x) => (s1, .error x)
      | (s1, .ok t) =>
        match s1.spotsAt e need (p.plus k) (n - k) fuel with
        | (s2, .error x) => (s2, .error x)
        | (s2, .ok ts) => (s2, .ok ((t, k) :: ts))

/-- Stretches of at most 16 bytes that no 16-byte boundary of the address cuts: offset and length. -/
def cuts16 (a n : Nat) : List (Nat × Nat) :=
  ((List.range n).filter (fun i => i == 0 || (a + i) % 16 == 0)).map (fun i => (i, min (n - i) (16 - (a + i) % 16)))

/-- The parts of a read at targets, from an address on, that peers have not given yet. -/
def ungiven (got : Given) : Addr → List (Target × Nat) → List PeerPart
  | _, [] => []
  | a, (.peer w x, n) :: rest =>
    ((cuts16 x n).map (fun (i, k) => (a + BitVec.ofNat 64 i, w, x + i, k))).filter (fun p => !got.any (fun y => y.1 == p.1)) ++
      ungiven got (a + BitVec.ofNat 64 n) rest
  | a, (_, n) :: rest => ungiven got (a + BitVec.ofNat 64 n) rest

/-- Bytes that a peer has given, from an address on; what has not come counts as uncorrectable. -/
def gotBytes (got : Given) (a : Addr) (n : Nat) : List (Byte × Bool) :=
  (List.range n).map (fun i =>
    match got.find? (fun x => decide ((a + BitVec.ofNat 64 i - x.1).toNat < x.2.1.length)) with
    | none => (0, true)
    | some x => (x.2.1[(a + BitVec.ofNat 64 i - x.1).toNat]?.getD 0, x.2.2))

/-- Bytes read at targets, from an address on, each with whether it is uncorrectable; a peer's bytes are those it has given. -/
def State.readSpots (s : State) (part : Nat) (got : Given) : Addr → List (Target × Nat) → State × List (Byte × Bool)
  | _, [] => (s, [])
  | a, (.peer _ _, n) :: rest =>
    let (s1, bs) := s.readSpots part got (a + BitVec.ofNat 64 n) rest
    (s1, gotBytes got a n ++ bs)
  | a, (t, n) :: rest =>
    let (s1, bs, bad) := s.readAt part t n
    let (s2, more) := s1.readSpots part got (a + BitVec.ofNat 64 n) rest
    (s2, bs.map (fun b => (b, bad)) ++ more)

/-- `n` bytes an engine reads, each with whether it is uncorrectable; what lies in peer memory must have been given (R377, R380). -/
def State.engineRead (s : State) (e : Engine) (got : Given) (p : Spot) (n : Nat) : State × Except EngineStop (List (Byte × Bool)) :=
  match s.spotsAt e .engineRead p n (n + 1) with
  | (s1, .error x) => (s1, .error x)
  | (s1, .ok ts) =>
    match ungiven got p.addr ts with
    | x :: xs => (s1, .error (.peers (x :: xs)))
    | [] =>
      let (s2, bs) := s1.readSpots e.g.part got p.addr ts
      (s2, .ok bs)

/-- The words of a scratchpad that bytes lie in, each with the mask of its bytes among them. -/
def wordUnits (unit : Nat → BadUnit) (off n : Nat) : List (BadUnit × Nat) :=
  (List.range ((off + n - 1) / 4 - off / 4 + 1)).map (fun i =>
    (unit (off / 4 + i), ((List.range 4).map (fun j =>
      if off ≤ 4 * (off / 4 + i) + j ∧ 4 * (off / 4 + i) + j < off + n then 2 ^ j else 0)).sum))

/-- The lines or scratch words that bytes within one line lie in, each with the mask of its bytes among them. -/
def Target.units (t : Target) (n : Nat) : List (BadUnit × Nat) :=
  match t with
  | .dev ga _ => [(.line (ga / 64), (2 ^ n - 1) * 2 ^ (ga % 64))]
  | .host a => [(.host (a / 64), (2 ^ n - 1) * 2 ^ (a % 64))]
  | .scratch ctx off => wordUnits (.scratch ctx) off n
  | .share gang off => wordUnits (.share gang) off n
  | .mmio _ | .peer _ _ => []

/-- The mask of all bytes of a unit. -/
def BadUnit.whole : BadUnit → Nat
  | .line _ | .host _ => 2 ^ 64 - 1
  | .scratch _ _ | .share _ _ => 2 ^ 4 - 1

/-- The key a target is read and written under. -/
def Target.key : Target → Nat
  | .dev _ key => key
  | .host _ | .mmio _ | .peer _ _ | .scratch _ _ | .share _ _ => 0

/-- A unit is uncorrectable, a line of device memory as a key reads it. -/
def State.unitBad (s : State) (part key : Nat) : BadUnit → Bool
  | .line n => !s.clean part (64 * n) key
  | .host n => s.badHost.contains n
  | .scratch ctx w => (Map.find s.groups ctx).any (fun g => g.badScratch.contains w)
  | .share gang w => (Map.find s.gangs gang).any (fun g => g.badScratch.contains w)

/-- A unit that has been overwritten whole is clean. -/
def State.cleanUnit (s : State) (part key : Nat) : BadUnit → State
  | .line n => s.formLine part key n true
  | .host n => { s with badHost := s.badHost.filter (fun l => l != n) }
  | .scratch ctx w => s.modGroup ctx (fun g => { g with badScratch := g.badScratch.filter (fun x => x != w) })
  | .share gang w => s.modGang gang (fun g => { g with badScratch := g.badScratch.filter (fun x => x != w) })

/-- A command of a core's engines, or a COLL, still works. -/
def State.spanLive (s : State) (core id : Nat) : Bool :=
  (s.core core).copies.any (fun c => c.id == id) || (s.core core).buffers.toList.any (fun b => b.any (fun d => d.rank == id)) ||
  (Map.find s.colls id).isSome

/-- Good bytes of a command put in a unit that is uncorrectable: it is clean once all of its bytes have been put. -/
def State.spanUnit (s : State) (core id part key : Nat) (u : BadUnit × Nat) : State :=
  if !s.unitBad part key u.1 then s
  else
    let same (x : Span) : Bool := x.id == id && x.unit == u.1
    let spans := (s.core core).spans
    let bytes := ((spans.find? same).map Span.bytes).getD 0 ||| u.2
    let rest := spans.filter (fun x => !same x && s.spanLive core x.id)
    if bytes = u.1.whole then (s.cleanUnit part key u.1).modCore core (fun c => { c with spans := rest })
    else s.modCore core (fun c => { c with spans := ⟨id, u.1, bytes⟩ :: rest })

/-- Bytes of a command put at a target, poisoned where one of them was read uncorrectable (R303). -/
def State.engineStore (s : State) (core id part : Nat) (t : Target) (bs : List (Byte × Bool)) : State :=
  let s1 := s.putAll part [⟨t, bs.map (fun b => some b.1)⟩]
  if bs.any (fun b => b.2) then s1.poisonAt t bs.length
  else (t.units bs.length).foldl (fun s u => s.spanUnit core id part t.key u) s1

/-! ## Shape records (R21, R22) -/

/-- A bit field of a shape record. -/
def shapeField (r : BitVec 512) (hi lo : Nat) : Nat := bits r.toNat hi lo

/-- FMT. -/
def shapeFmt (r : BitVec 512) : Nat := shapeField r 435 432
/-- Dimensions. -/
def shapeDims (r : BitVec 512) : Nat := shapeField r 437 436 + 1
/-- EDGE. -/
def shapeEdge (r : BitVec 512) : Nat := shapeField r 439 438
/-- The extent of a dimension. -/
def shapeExt (r : BitVec 512) (d : Nat) : Nat := shapeField r (95 + 32 * d) (64 + 32 * d)
/-- The box extent of a dimension: 1 at or above NDIM + 1. -/
def shapeBox (r : BitVec 512) (d : Nat) : Nat := if d < shapeDims r then shapeField r (407 + 8 * d) (400 + 8 * d) + 1 else 1
/-- The byte stride of a dimension above 0. -/
def shapeStride (r : BitVec 512) (d : Nat) : Int := (r.extractLsb' (128 + 64 * d) 64).toInt
/-- BASE. -/
def shapeBase (r : BitVec 512) : Addr := r.extractLsb' 0 64

/-- Elements of dimension 0 in one unit of the format, and the unit's bytes (R21, R186). -/
def fmtUnit (fmt : Nat) : Nat × Nat :=
  match fmt with
  | 0 => (1, 1) | 1 => (1, 2) | 2 => (1, 4) | 3 => (1, 8) | 4 => (1, 4) | 5 => (1, 2) | 6 => (1, 2)
  | 7 => (16, 8) | 8 => (16, 12) | 9 => (16, 18) | 10 => (256, 52) | 11 => (4, 2)
  | _ => (1, 1)

/-- A shape record that QSET refuses (R22). -/
def shapeBad (r : BitVec 512) : Bool :=
  let u := (fmtUnit (shapeFmt r)).1
  shapeField r 511 444 != 0 || decide (9 < shapeField r 443 440) || decide (1 < shapeEdge r) || decide (11 < shapeFmt r) ||
  shapeField r 399 384 != 0 || (canonical (shapeBase r)).isNone ||
  (List.range (shapeDims r)).any (fun d => shapeExt r d == 0 || decide (shapeExt r d < shapeBox r d)) ||
  shapeExt r 0 % u != 0 || shapeBox r 0 % u != 0

/-- Bytes of the box packed in scratch. -/
def boxRow (r : BitVec 512) : Nat := shapeBox r 0 / (fmtUnit (shapeFmt r)).1 * (fmtUnit (shapeFmt r)).2

/-- Bytes of the whole box. -/
def boxBytes (r : BitVec 512) : Nat := boxRow r * shapeBox r 1 * shapeBox r 2 * shapeBox r 3

/-- The byte of a clipped element that a load places (R186): EDGE 1 places the canonical NaN in the FP formats. -/
def fillByte (r : BitVec 512) (x : Nat) : Byte :=
  let nan : Nat := if shapeFmt r = 4 then FpFmt.f32.nan else if shapeFmt r = 5 then FpFmt.bf16.nan else if shapeFmt r = 6 then FpFmt.f16.nan else 0
  if shapeEdge r = 1 then BitVec.ofNat 8 (nan / 256 ^ (x % (fmtUnit (shapeFmt r)).2)) else 0

/-- What lies at a byte of the packed box: an address, or none where the element is clipped; and how many bytes on it holds. -/
def boxAt (r : BitVec 512) (org : List Int) (p : Nat) : Option Addr × Nat :=
  let row := p / boxRow r
  let x := p % boxRow r
  let (ue, ub) := fmtUnit (shapeFmt r)
  let idx (d : Nat) : Int := match d with
    | 1 => (row % shapeBox r 1 : Nat)
    | 2 => (row / shapeBox r 1 % shapeBox r 2 : Nat)
    | _ => (row / (shapeBox r 1 * shapeBox r 2) : Nat)
  let o (d : Nat) : Int := if d < shapeDims r then org[d]?.getD 0 else 0
  let c (d : Nat) : Int := o d + idx d
  let outside := [1, 2, 3].any (fun d => decide (d < shapeDims r) && (decide (c d < 0) || decide ((shapeExt r d : Int) ≤ c d)))
  let units : Nat := shapeBox r 0 / ue
  let u0 : Int := o 0 / ue
  let ext : Int := (shapeExt r 0 / ue : Nat)
  let lo : Nat := min units (max 0 (-u0)).toNat * ub
  let hi : Nat := min units (max 0 (ext - u0)).toNat * ub
  if outside then (none, boxRow r - x)
  else if x < lo then (none, lo - x)
  else if x < hi then
    let off : Int := (u0 * ub + x) + ([1, 2, 3].foldl (fun a d => if d < shapeDims r then a + c d * shapeStride r d else a) 0)
    (some (shapeBase r + BitVec.ofInt 64 off), hi - x)
  else (none, boxRow r - x)

/-- A tensor command's origin breaks the block rules of its format (R186). -/
def originBad (r : BitVec 512) (org : List Int) : Bool :=
  let u := (fmtUnit (shapeFmt r)).1
  decide ((org[0]?.getD 0) % (u : Int) ≠ 0) || shapeBox r 0 % u != 0 ||
  (shapeFmt r == 10 && (decide ((org[0]?.getD 0) ≠ 0) || shapeBox r 0 != shapeExt r 0))

/-! ## Arbiter requests (R252, R428) -/

/-- A request posted at the cluster arbiter, by a partition of the core, or by a command or instruction under its number. -/
def State.ask (s : State) (cls : ResClass) (core part charge : Nat) : State :=
  s.modCluster (clusterOf core) (fun k => { k with waiting := k.waiting ++ [⟨cls, core, part, charge, k.clock, 0⟩] })

/-- The request of a command or an instruction has been granted. -/
def State.hasGrant (s : State) (cls : ResClass) (core part : Nat) : Bool :=
  (s.cluster (clusterOf core)).granted.any (fun x => x.cls == cls && x.core == core && x.part == part)

/-- Its request waits. -/
def State.hasAsked (s : State) (cls : ResClass) (core part : Nat) : Bool :=
  (s.cluster (clusterOf core)).waiting.any (fun x => x.cls == cls && x.core == core && x.part == part)

/-- A class's rank, highest 0. -/
def ResClass.rank : ResClass → Nat
  | .drain => 0 | .copy => 1 | .vector => 2 | .matrix => 3

/-- The rank a waiting request has at a cluster clock. -/
def Reservation.rankAt (r : Reservation) (clock : Nat) : Nat := r.cls.rank - max r.up ((clock - r.since) / 256)

/-- A request ahead of another: class, age, core, partition. -/
def Reservation.before (clock : Nat) (a b : Reservation) : Bool :=
  if a.rankAt clock ≠ b.rankAt clock then decide (a.rankAt clock < b.rankAt clock)
  else if a.since ≠ b.since then decide (a.since < b.since)
  else if a.core ≠ b.core then decide (a.core < b.core)
  else decide (a.part < b.part)

/-- The request the arbiter comes to next. -/
def firstRequest (clock : Nat) : List Reservation → Option Reservation
  | [] => none
  | r :: rs => match firstRequest clock rs with
    | none => some r
    | some x => if Reservation.before clock x r then some x else some r

/-- LIMIT: that of PWRLIM, or half of it for a hot cluster, never below 2,048 nJ (R427, R432). -/
def Cluster.limit (c : Cluster) : Nat := if c.hot then max 2048 (c.pwrlim.toNat / 2) else c.pwrlim.toNat

/-- Charges that count at a cluster clock. -/
def Cluster.window (c : Cluster) : Nat := ((c.charges.filter (fun x => decide (c.clock < x.1 + 1024))).map Prod.snd).sum

/-- A request granted: a vector unit is 256 passes, any other waits for its use. -/
def State.grant (s : State) (k : Nat) (r : Reservation) : State :=
  let s1 := s.modCluster k (fun c => { c with
    waiting := c.waiting.erase r
    charges := c.charges.filter (fun x => decide (c.clock < x.1 + 1024)) ++ [(c.clock, r.charge)]
    granted := if r.cls = .vector then c.granted else c.granted ++ [r] })
  if r.cls = .vector then s1.modCore r.core (fun c => { c with passes := vmod c.passes r.part (fun n => n + 256) }) else s1

/-- The first request in rank, if it fits in the window (R428). -/
def State.nextGrant (s : State) (k : Nat) : Option Reservation :=
  (firstRequest (s.cluster k).clock (s.cluster k).waiting).filter (fun r => decide ((s.cluster k).window + r.charge ≤ (s.cluster k).limit))

/-- Requests granted in rank as long as they fit, at most `fuel` of them. -/
def State.grantAll (s : State) (k : Nat) : Nat → State
  | 0 => s
  | fuel + 1 =>
    match s.nextGrant k with
    | none => s
    | some r => (s.grant k r).grantAll k fuel

/-- A reservation is asked for, unless it has been; where nothing stays queued the arbiter looks at it at once. -/
def State.want (s : State) (cls : ResClass) (core part charge : Nat) : State :=
  let s1 := if s.hasGrant cls core part || s.hasAsked cls core part then s else s.ask cls core part charge
  if s1.deferred then s1 else s1.grantAll (clusterOf core) (s1.cluster (clusterOf core)).waiting.length

/-- The grant is used. -/
def State.useGrant (s : State) (cls : ResClass) (core part : Nat) : State :=
  s.modCluster (clusterOf core) (fun k => { k with granted := k.granted.eraseP (fun x => x.cls == cls && x.core == core && x.part == part) })

/-! ## Agreed operands of commands (R184) -/

/-- The agreed values of several registers: each covered thread holds the same ones. -/
def Wave.agreeRow (w : Wave) (cov : Mask) (rs : List Nat) : Except Trap (List Word) :=
  let f (t : Lane) : List Word := rs.map (fun r => w.read r t)
  if dissent cov f = 0 then .ok (f (Mask.lowest cov)) else .error (Trap.of .illegalConvergence (dissent cov f))

/-- An engine command (R184): nothing without a covered thread; its checks; the wait for the slot's earlier accesses; then
its effect, once. -/
def State.command (s : State) (g : Guard) {α : Type} (check : Here → Mask → Except Trap α) (run : Here → Mask → α → State) :
    Host.Outcome State Fault Refusal :=
  s.act (fun h =>
    let cov := h.cov g
    if cov = 0 then s.goesOn h
    else
      match check h cov with
      | .error t => s.takeTrap h t
      | .ok x => if s.slotQuiet h then run h cov x else s.putWave h (h.w.stallAt h.k .stall))

/-- The engine that works for the issuing slot. -/
def Here.engine (h : Here) : Engine := ⟨h.g.core, h.ctx, h.g, h.w.tag.toNat⟩

/-- A wave of a saved group changed. -/
def SavedGroup.modWave (x : SavedGroup) (ctx wv : Nat) (f : Wave → Wave) : SavedGroup :=
  if x.ctx = ctx then { x with group := { x.group with waves := x.group.waves.modify wv f } } else x

/-- A wave changed, of a resident or of a saved group. -/
def State.modHeldWave (s : State) (ctx wv : Nat) (f : Wave → Wave) : State :=
  let s1 := s.modWave ctx wv f
  { s1 with saved := s1.saved.map (fun x => (x.1, { x.2 with groups := x.2.groups.map (fun y => y.modWave ctx wv f) })) }

/-- An undelivered fault of a command is noted in its wave (R184, R299, R344). -/
def State.engineFault (s : State) (ctx wv : Nat) (f : AsyncFault) : State :=
  s.modHeldWave ctx wv (fun w => { w with faults := w.faults ++ [f] })

end Sys2Proof.Machine
end

