-- ==== Sys2Proof/Machine/Copies.lean ====
section
/-! DEFINITION. The copy engine: CPY, CPYMC, their chunks, CPYWP, CPYWT, PUBL, WVSEL (R184–R191, R287, R357, R358). -/

namespace Sys2Proof.Machine

/-! ## What a command moves -/

/-- A stretch of a command's address order: where it is read and where it is put; `fill` gives bytes that are placed unread. -/
structure Piece where
  src : Option Spot
  dst : Option Spot
  fill : List Byte
  len : Nat
  deriving DecidableEq, Repr

/-- Bytes of a command in its address order. -/
def CopyKind.total : CopyKind → Nat
  | .lin _ _ _ _ len => len
  | .load r _ _ | .store r _ _ | .reduce r _ _ => boxBytes r
  | .multi _ _ count _ _ len => count * len

/-- How a command's 4-byte elements combine at the destination; `none` for plain bytes. -/
def CopyKind.combines : CopyKind → Option Aop
  | .reduce _ _ _ => some .fadd
  | .multi .fadd _ _ _ _ _ => some .fadd
  | .multi .add _ _ _ _ _ => some .add
  | .multi .st _ _ _ _ _ => none
  | .lin _ _ _ _ _ | .load _ _ _ | .store _ _ _ => none

/-- A place as an operand names it: a scratch address or a virtual one. -/
def spotOf (scratch : Bool) (a : Addr) : Spot := if scratch then .scratch (a.setWidth 32) else .mem a

/-- The stretch at a position of a command, at most `n` bytes, within one line at each end; elements that combine go one by one, read
from scratch wherever they lie (R191). -/
def CopyKind.piece (c : CopyKind) (p n : Nat) : Piece :=
  let fit (src dst : Option Spot) (k : Nat) : Piece :=
    let k1 := match src with | none => k | some x => if c.combines.isSome then k else min k x.toLine
    let k2 := match dst with | none => k1 | some x => min k1 x.toLine
    let k3 := min k2 n
    ⟨src, dst, [], if c.combines.isSome then min k3 4 else k3⟩
  match c with
  | .lin dst src ss ds len => fit (some ((spotOf ss src).plus p)) (some ((spotOf ds dst).plus p)) (len - p)
  | .load r org dst =>
    let tgt := (Spot.scratch dst).plus p
    match boxAt r org p with
    | (some a, k) => fit (some (.mem a)) (some tgt) k
    | (none, k) =>
      let x := fit none (some tgt) k
      { x with fill := (List.range x.len).map (fun i => fillByte r (p % boxRow r + i)) }
  | .store r org src | .reduce r org src =>
    match boxAt r org p with
    | (some a, k) => fit (some ((Spot.scratch src).plus p)) (some (.mem a)) k
    | (none, k) => fit none none k
  | .multi _ _ _ dsts src len =>
    fit (some ((Spot.scratch src).plus (p % len))) (some (.mem (dsts[p / len]?.getD 0 + BitVec.ofNat 64 (p % len)))) (len - p % len)

/-- Where the command's scratch destination starts, if it has one (R187). -/
def CopyKind.scratchDst : CopyKind → Option Word
  | .lin dst _ _ ds _ => if ds then some (dst.setWidth 32) else none
  | .load _ _ dst => some dst
  | .store _ _ _ | .reduce _ _ _ | .multi _ _ _ _ _ _ => none

/-- What the engine asks of a page it writes for the command. -/
def CopyKind.writeNeed (c : CopyKind) : Need := if c.combines.isSome then .engineAtomic else .engineWrite

/-! ## A chunk -/

/-- The engine of a command. -/
def CopyCmd.engine (c : CopyCmd) (core : Nat) (g : Group) : Engine := ⟨core, c.ctx, g, c.tag.toNat⟩

/-- A remote operation of a command (R380, R381). -/
def CopyCmd.remote (c : CopyCmd) (core pos window addr : Nat) (va : Addr) (op : FabricOp) : RemoteOp :=
  { ctx := c.ctx, core := core, wave := c.wave, slot := 0, thread := 0, pc := 0, word := c.id, off := pos,
    cover := some (.channel c.ch), coll := none, serial := none, window := window, addr := BitVec.ofNat 40 addr, va := va,
    op := op, epoch := 0, firstSent := 0, lastSent := 0, sends := 0, interval := 50000, status := .queued, telem := noElem,
    gen := none }

/-- Bytes put at a command's destination: stored, combined as elements, or sent to a peer. -/
def State.copyPut (s : State) (core : Nat) (c : CopyCmd) (part pos : Nat) (va : Addr) (t : Target) (bs : List (Byte × Bool)) : State :=
  let num (l : List (Byte × Bool)) : Nat := leNat (l.map Prod.fst)
  match c.kind.combines, t with
  | some aop, .peer w a => s.startRemote (c.remote core pos w a va (.red aop false (BitVec.ofNat 64 (num bs))))
  | some aop, _ =>
    let (s1, _, _) := s.exchange part t 4 (fun old => atomOp aop 32 old (num bs))
    if bs.any (fun b => b.2) then s1.poisonAt t 4 else s1
  | none, .peer w a =>
    (cuts16 a bs.length).foldl (fun s (i, n) =>
      let l := (bs.drop i).take n
      s.startRemote (c.remote core (pos + i) w (a + i) (va + BitVec.ofNat 64 i)
        (.store n (BitVec.ofNat 128 (num l)) (BitVec.ofNat 16 (2 ^ n - 1)) (l.any (fun b => b.2))))) s
  | none, _ => s.engineStore core c.id part t bs

/-- Bytes that have been delivered count against the command's barrier (R183). -/
def State.copyLanded (s : State) (c : CopyCmd) (n : Nat) : State :=
  match c.bar with
  | none => s
  | some b => s.deliverTx c.ctx b.toNat n

/-- Bytes put at a command's destination, which count as they land there: those sent to a peer with its reply (R183). -/
def State.copyDeliver (s : State) (core : Nat) (c : CopyCmd) (part pos : Nat) (va : Addr) (t : Target) (bs : List (Byte × Bool)) : State :=
  let s1 := s.copyPut core c part pos va t bs
  match t with
  | .peer _ _ => s1
  | .dev _ _ | .host _ | .mmio _ | .scratch _ _ | .share _ _ => s1.copyLanded c bs.length

/-- Lanes that bytes put at a target send. -/
def CopyKind.lanesTo (k : CopyKind) (t : Target) (n : Nat) : Nat :=
  match t with
  | .peer _ a => if k.combines.isSome then 1 else (cuts16 a n).length
  | .dev _ _ | .host _ | .mmio _ | .scratch _ _ | .share _ _ => 0

/-- What comes of a piece of a command. -/
inductive PieceRun
  /-- so many of its bytes have been moved, or asked of a peer -/
  | moved (n : Nat)
  | stop (x : EngineStop)
  /-- the outstanding list or the context's serials have no room for its lanes (R256, R380, R384) -/
  | full
  deriving DecidableEq, Repr

/-- A 4-byte element that combines must be aligned. -/
def CopyCmd.misplaced (c : CopyCmd) (p : Piece) : Option Addr :=
  match p.dst with
  | none => none
  | some d => if c.kind.combines.isSome && d.addr.toNat % 4 != 0 then some d.addr else none

/-- One piece moved, with how many bytes of it, or why it stops; a peer's bytes are asked for and land with the reply. -/
def State.copyPiece (s : State) (core : Nat) (c : CopyCmd) (g : Group) (pos : Nat) (p : Piece) : State × PieceRun :=
  let e := c.engine core g
  match p.dst, c.misplaced p with
  | none, _ => (s, .moved p.len)
  | some _, some a => (s, .stop (.fail .misaligned a))
  | some d, none =>
    match s.spotAt e c.kind.writeNeed d p.len with
    | (s1, .error x) => (s1, .stop x)
    | (s1, .ok tgt) =>
      let n := c.kind.lanesTo tgt p.len
      match p.src with
      | none =>
        if s1.remoteFull core c.ctx n n then (s1, .full)
        else (s1.copyDeliver core c g.part pos d.addr tgt (p.fill.map (fun b => (b, false))), .moved p.len)
      | some q =>
        match s1.spotAt e .engineRead q p.len with
        | (s2, .error x) => (s2, .stop x)
        | (s2, .ok (.peer w a)) =>
          let cuts := if c.kind.scratchDst.isSome then (cuts16 a p.len).take 1 else cuts16 a p.len
          if s2.remoteFull core c.ctx cuts.length 0 then (s2, .full)
          else
            (cuts.foldl (fun s (i, n) =>
              s.startRemote (c.remote core (pos + i) w (a + i) (q.addr + BitVec.ofNat 64 i) (.load n))) s2, .moved ((cuts.map Prod.snd).sum))
        | (s2, .ok src) =>
          if s2.remoteFull core c.ctx n n then (s2, .full)
          else
            let (s3, bs, bad) := s2.readAt g.part src p.len
            (s3.copyDeliver core c g.part pos d.addr tgt (bs.map (fun b => (b, bad))), .moved p.len)

/-- Operations of a command that its peers have not answered. -/
def State.copyOpen (s : State) (core id : Nat) : List RemoteOp :=
  (s.remote.filter (fun o => o.2.core == core && o.2.word == id && o.2.cover.isSome && o.2.open_)).map Prod.snd

/-- A multicast that has not read its list of destinations (R191). -/
def CopyKind.unread : CopyKind → Bool
  | .multi _ _ _ dsts _ _ => dsts.isEmpty
  | .lin _ _ _ _ _ | .load _ _ _ | .store _ _ _ | .reduce _ _ _ => false

/-- A command waits for bytes that it has asked a peer for: those of its list, and all where it writes scratch in ascending order (R187,
R191, R268). -/
def State.copyAwaits (s : State) (core : Nat) (c : CopyCmd) : Bool :=
  (c.kind.scratchDst.isSome || c.kind.unread) && !(s.copyOpen core c.id).isEmpty

/-- Pieces moved from a position up to a stop, at most `fuel` of them. -/
def State.copyPieces (s : State) (core : Nat) (c : CopyCmd) (g : Group) (stop : Nat) : Nat → Nat → State × Nat × Option EngineStop
  | _, 0 => (s, 0, none)
  | pos, fuel + 1 =>
    if stop ≤ pos ∨ s.copyAwaits core c then (s, pos, none)
    else
      match s.copyPiece core c g pos (c.kind.piece pos (stop - pos)) with
      | (s1, .stop x) => (s1, pos, some x)
      | (s1, .full) => (s1, pos, none)
      | (s1, .moved n) => s1.copyPieces core c g stop (pos + max 1 n) fuel

/-- A command replaced in its core's list. -/
def Core.setCopy (k : Core) (c : CopyCmd) : Core := { k with copies := k.copies.map (fun x => if x.id = c.id then c else x) }

/-- A command leaves its core's list. -/
def Core.dropCopy (k : Core) (id : Nat) : Core := { k with copies := k.copies.filter (fun x => x.id != id) }

/-- The write pointer of a channel as far as a command's destination is written (R187). -/
def State.movePointer (s : State) (core : Nat) (c : CopyCmd) (pos : Nat) : State :=
  match c.kind.scratchDst with
  | none => s
  | some d =>
    if (s.core core).copies.any (fun x => x.ctx == c.ctx && x.wave == c.wave && x.ch == c.ch && decide (c.id < x.id) && x.kind.scratchDst.isSome) then s
    else
      let below := (s.copyOpen core c.id).foldl (fun m o => min m o.off) pos
      s.modWave c.ctx c.wave (fun w => { w with writePtr := vmod w.writePtr c.ch (fun _ => d + BitVec.ofNat 32 below) })

/-- A command that has moved its bytes and has every answer is complete. -/
def State.settleCopy (s : State) (core : Nat) (c : CopyCmd) : State :=
  let s1 := s.movePointer core c c.done
  if c.kind.total ≤ c.done ∧ (s1.copyOpen core c.id).isEmpty then s1.modCore core (fun k => k.dropCopy c.id)
  else s1.modCore core (fun k => k.setCopy c)

/-- A command that has moved a whole chunk and has more to move asks for the next (R252). -/
def State.askCopy (s : State) (core id : Nat) : State :=
  if (s.core core).copies.any (fun x => x.id == id && x.token.isNone && decide (x.done < x.kind.total) && x.done % 4096 == 0) then
    s.want .copy core id 64
  else s

/-- A command that faults ends; its fault waits for the covering wait (R184). -/
def State.copyFault (s : State) (core : Nat) (c : CopyCmd) (cause : Cause) (addr : Addr) : State :=
  ((s.engineFault c.ctx c.wave ⟨.channel c.ch, c.bar, cause, addr, c.id⟩).modCore core (fun k => k.dropCopy c.id)).dropAsks core

/-- The destinations of a multicast with their permission checked over the whole range of each (R191). -/
def State.readDsts (s : State) (core : Nat) (c : CopyCmd) (g : Group) (list : Addr) (count len : Nat) : State × Except EngineStop (List Addr) :=
  let e := c.engine core g
  match s.engineRead e c.got (.mem list) (8 * count) with
  | (s1, .error x) => (s1, .error x)
  | (s1, .ok bs) =>
    let dsts := (List.range count).map (fun i => BitVec.ofNat 64 (leNat (((bs.drop (8 * i)).take 8).map Prod.fst)))
    let step (acc : State × Option EngineStop) (d : Addr) : State × Option EngineStop :=
      match acc with
      | (s, some x) => (s, some x)
      | (s, none) =>
        match s.spotsAt e c.kind.writeNeed (.mem d) len (len + 1) with
        | (s1, .error (.fail .permission _)) => (s1, some (.fail .permission d))
        | (s1, .error x) => (s1, some x)
        | (s1, .ok _) => (s1, none)
    match dsts.foldl step (s1, none) with
    | (s2, some x) => (s2, .error x)
    | (s2, none) => (s2, .ok dsts)

/-- A command as it goes into its next chunk: a multicast has read its destinations. -/
def State.openCopy (s : State) (core : Nat) (c : CopyCmd) (g : Group) : State × Except EngineStop CopyCmd :=
  match c.kind with
  | .multi op list count [] src len =>
    match s.readDsts core c g list count len with
    | (s1, .error x) => (s1, .error x)
    | (s1, .ok dsts) => (s1, .ok { c with kind := .multi op list count dsts src len, got := [] })
  | .multi _ _ _ (_ :: _) _ _ | .lin _ _ _ _ _ | .load _ _ _ | .store _ _ _ | .reduce _ _ _ => (s, .ok c)

/-- What a stop makes of a command: it waits for its fault record, it faults, or it asks peers for its list, where the outstanding list has
room. -/
def State.copyStop (s : State) (core : Nat) (c : CopyCmd) : EngineStop → State
  | .wait t a => (s.movePointer core c c.done).modCore core (fun k => k.setCopy { c with token := some t, va := a })
  | .fail cause a => (s.movePointer core c c.done).copyFault core c cause a
  | .peers ps =>
    let s1 := s.modCore core (fun k => k.setCopy c)
    if s1.remoteFull core c.ctx ps.length 0 then s1
    else ps.foldl (fun s p => s.startRemote (c.remote core c.done p.2.1 p.2.2.1 p.1 (.load p.2.2.2))) s1

/-- Where the chunk of 4 KiB that a command is in ends. -/
def CopyCmd.chunkEnd (c : CopyCmd) : Nat := min c.kind.total ((c.done / 4096 + 1) * 4096)

/-- One chunk of 4 KiB of a command (R184), or what is left of it; a copy from a peer into scratch stops in it for each reply. -/
def State.copyChunk (s : State) (core id : Nat) : State :=
  match (s.core core).copies.find? (fun x => x.id == id) with
  | none => s
  | some c0 =>
    match Map.find s.groups c0.ctx with
    | none => s.modCore core (fun k => k.dropCopy id)
    | some g =>
      match s.openCopy core { c0 with token := none } g with
      | (s1, .error x) => s1.copyStop core { c0 with token := none } x
      | (s1, .ok c) =>
        match s1.copyPieces core c g c.chunkEnd c.done 4097 with
        | (s2, pos, some x) => s2.copyStop core { c with done := pos } x
        | (s2, pos, none) => s2.settleCopy core { c with done := pos }

/-- A command that stands inside a chunk has its reservation already. -/
def CopyCmd.midChunk (c : CopyCmd) : Bool := c.done % 4096 != 0

/-- The group of a context is being stopped: its engines begin no further unit (R336). -/
def State.halts (s : State) (ctx : Nat) : Bool := (Map.find s.groups ctx).any Group.stopping

/-- The command may move on: it waits for no record and no peer, has bytes left, and begins no chunk while its group is being stopped (R336). -/
def State.copyMoves (s : State) (core : Nat) (c : CopyCmd) : Bool :=
  c.token.isNone && !s.copyAwaits core c && decide (c.done < max 1 c.kind.total) && (c.midChunk || !s.halts c.ctx)

/-- A chunk, or the rest of one, under the command's reservation; the reservation stands while the chunk cannot begin, for want of room or of its
list (R252, R256, R380). -/
def State.copyTurn (s : State) (core : Nat) (c : CopyCmd) : State :=
  let t := s.copyChunk core c.id
  let begun := match (t.core core).copies.find? (fun x => x.id == c.id) with
    | none => true
    | some x => x.done != c.done
  if begun && !c.midChunk then t.useGrant .copy core c.id else t

/-- Chunks until the command has no more to move, waits or has no reservation, at most `fuel` of them. -/
def State.copyAll (s : State) (core id : Nat) : Nat → State
  | 0 => s
  | fuel + 1 =>
    match (s.core core).copies.find? (fun x => x.id == id) with
    | none => s
    | some c =>
      if !s.copyMoves core c then s
      else
        let s1 := if c.midChunk then s else s.want .copy core id 64
        if c.midChunk || s1.hasGrant .copy core id then (s1.copyTurn core c).copyAll core id fuel else s1

/-- Commands of a wave on a channel, oldest first. -/
def State.onChannel (s : State) (core ctx wv ch : Nat) : List CopyCmd :=
  (s.core core).copies.filter (fun x => x.ctx == ctx && x.wave == wv && x.ch == ch)

/-- The oldest command of its wave and channel. -/
def State.leads (s : State) (core : Nat) (c : CopyCmd) : Bool := (s.onChannel core c.ctx c.wave c.ch).head?.any (fun x => x.id == c.id)

/-- Every command that may move does, oldest first. -/
def State.workChannel (s : State) (core ctx wv ch : Nat) : Nat → State
  | 0 => s
  | fuel + 1 =>
    match (s.onChannel core ctx wv ch).head? with
    | none => s
    | some c => if s.copyMoves core c then (s.copyAll core c.id (c.kind.total / 4096 + 1)).workChannel core ctx wv ch fuel else s

/-- A command joins its core's list; where nothing stays queued it is carried out. -/
def State.startCopy (s : State) (h : Here) (kind : CopyKind) (m : CopyMod) : State :=
  let core := h.g.core
  let c : CopyCmd := ⟨s.nextId, h.ctx, h.wv, m.ch.toNat, m.bar, kind, 0, (s.core core).clock.toNat, none, 0, h.w.tag, []⟩
  let s1 := (s.takeId.goesOn h).modCore core (fun k => { k with copies := k.copies ++ [c] })
  let s2 := s1.movePointer core c 0
  if s.deferred then s2.ask .copy core c.id 64
  else s2.workChannel core h.ctx h.wv m.ch.toNat ((s2.onChannel core h.ctx h.wv m.ch.toNat).length)

/-! ## The commands -/

/-- A range in scratch that a command names is not permitted (R158). -/
def State.scratchDenied (s : State) (h : Here) (a : Word) (n : Nat) : Bool := (s.scratchAt h.ctx h.g a n).isNone

/-- The registers of an operand: one for a scratch address, a pair otherwise. -/
def spotRegs (scratch : Bool) (r : Reg) : List Nat := if scratch then [r.toNat] else [r.toNat, r.toNat + 1]

/-- The number two or one words make. -/
def addrOf (ws : List Word) : Addr := BitVec.ofNat 64 ((ws[0]?.getD 0).toNat + (ws[1]?.getD 0).toNat * 2 ^ 32)

/-- CPY.lin (R185). -/
def execCpyLin (g : Guard) (vd va vb : Reg) (c : CopyMod) (ss ds : Bool) (s : State) : Host.Outcome State Fault Refusal :=
  s.command g
    (fun h cov => do
      let dst ← h.w.agreeRow cov (spotRegs ds vd)
      let src ← h.w.agreeRow cov (spotRegs ss va)
      let len ← h.w.agree cov vb.toNat
      if ss && s.scratchDenied h ((addrOf src).setWidth 32) len.toNat then .error (Trap.named h.w .permission cov va.toNat (addrOf src))
      else if ds && s.scratchDenied h ((addrOf dst).setWidth 32) len.toNat then .error (Trap.named h.w .permission cov vd.toNat (addrOf dst))
      else .ok (addrOf dst, addrOf src, len.toNat))
    (fun h _ x => s.startCopy h (.lin x.1 x.2.1 ss ds x.2.2) c)

/-- The registers of a quad. -/
def quadRegs (r : Reg) : List Nat := [r.toNat, r.toNat + 1, r.toNat + 2, r.toNat + 3]

/-- The operands of a tensor command: the origins and the scratch address, checked against the record (R185, R186); `.tred` asks for FP32
and for no alignment of its source. -/
def State.boxOperands (s : State) (h : Here) (cov : Mask) (quad other : Reg) (r : BitVec 512) (red : Bool) : Except Trap (List Int × Word) := do
  let org ← h.w.agreeRow cov (quadRegs quad)
  let a ← h.w.agree cov other.toNat
  let o := org.map BitVec.toInt
  if originBad r o then .error (Trap.named h.w .engineShape cov quad.toNat 0)
  else if red && shapeFmt r != 4 then .error (Trap.of .engineShape cov)
  else if s.scratchDenied h a (boxBytes r) then .error (Trap.named h.w .engineShape cov other.toNat 0)
  else if !red && a.toNat % 16 ≠ 0 then .error (Trap.named h.w .misaligned cov other.toNat (a.setWidth 64))
  else .ok (o, a)

/-- The shape record of a number. -/
def Group.shape (g : Group) (q : BitVec 4) : BitVec 512 := vget g.shapes q.toNat 0

/-- CPY.tld (R185, R186). -/
def execCpyTld (g : Guard) (vd va : Reg) (q : BitVec 4) (c : CopyMod) (s : State) : Host.Outcome State Fault Refusal :=
  s.command g (fun h cov => s.boxOperands h cov va vd (h.g.shape q) false)
    (fun h _ x => s.startCopy h (.load (h.g.shape q) x.1 x.2) c)

/-- CPY.tst (R185, R186). -/
def execCpyTst (g : Guard) (vd va : Reg) (q : BitVec 4) (c : CopyMod) (s : State) : Host.Outcome State Fault Refusal :=
  s.command g (fun h cov => s.boxOperands h cov vd va (h.g.shape q) false)
    (fun h _ x => s.startCopy h (.store (h.g.shape q) x.1 x.2) c)

/-- CPY.tred (R185, R186). -/
def execCpyTred (g : Guard) (vd va : Reg) (q : BitVec 4) (c : CopyMod) (s : State) : Host.Outcome State Fault Refusal :=
  s.command g (fun h cov => s.boxOperands h cov vd va (h.g.shape q) true)
    (fun h _ x => s.startCopy h (.reduce (h.g.shape q) x.1 x.2) c)

/-- CPYMC (R191). -/
def execCpymc (g : Guard) (vd va vb vc : Reg) (op : McOp) (c : CopyMod) (s : State) : Host.Outcome State Fault Refusal :=
  s.command g
    (fun h cov => do
      let list ← h.w.agree64 cov vb.toNat
      let src ← h.w.agree cov va.toNat
      let len ← h.w.agree cov vd.toNat
      let count ← h.w.agree cov vc.toNat
      if len.toNat < 4 ∨ 2 ^ 24 < len.toNat ∨ len.toNat % 4 ≠ 0 then .error (Trap.named h.w .engineShape cov vd.toNat 0)
      else if count.toNat < 1 ∨ 16 < count.toNat then .error (Trap.named h.w .engineShape cov vc.toNat 0)
      else if list.toNat % 8 ≠ 0 then .error (Trap.named h.w .misaligned cov vb.toNat list)
      else if s.scratchDenied h src len.toNat then .error (Trap.named h.w .permission cov va.toNat (src.setWidth 64))
      else .ok (list, src, len.toNat, count.toNat))
    (fun h _ x => s.startCopy h (.multi op x.1 x.2.2.2 [] x.2.1 x.2.2.1) c)

/-- CPYWP (R188). -/
def execCpywp (g : Guard) (vd : Reg) (ch : BitVec 3) (s : State) : Host.Outcome State Fault Refusal :=
  s.waveWord (fun h => h.w.writeLanes (h.cov g) vd.toNat .none (fun _ => vget h.w.writePtr ch.toNat 0))

/-- The fault a wait delivers for a cover, once nothing of it is under way (R299). -/
def State.waitWord (s : State) (h : Here) (busy : Bool) (cover : Cover) : State :=
  if busy then s.putWave h (h.w.stallAt h.k .stall)
  else
    match h.w.firstFault (fun f => f.cover == cover) with
    | some f => s.deliverFault h f
    | none => s.goesOn h

/-- CPYWT (R188), whatever EXEC and the guard hold. -/
def execCpywt (_g : Guard) (ch : BitVec 3) (s : State) : Host.Outcome State Fault Refusal :=
  s.act (fun h => s.waitWord h (!(s.onChannel h.g.core h.ctx h.wv ch.toNat).isEmpty) (.channel ch.toNat))

/-! ## PUBL and WVSEL (R189, R190, R358) -/

/-- The bytes that a row of a box has in memory: the first one's address and how many; none where the whole row is clipped. -/
def boxRun (r : BitVec 512) (org : List Int) (row : Nat) : Option (Addr × Nat) :=
  match boxAt r org (row * boxRow r) with
  | (some a, k) => some (a, k)
  | (none, k) =>
    if boxRow r ≤ k then none
    else match boxAt r org (row * boxRow r + k) with
      | (some a, n) => some (a, n)
      | (none, _) => none

/-- The destinations of a multicast as its list names them now; none where the list cannot be read yet. -/
def State.listed (s : State) (core : Nat) (c : CopyCmd) (g : Group) (list : Addr) (count : Nat) : Option (List Addr) :=
  match s.engineRead (c.engine core g) c.got (.mem list) (8 * count) with
  | (_, .error _) => none
  | (_, .ok bs) => some ((List.range count).map (fun i => BitVec.ofNat 64 (leNat (((bs.drop (8 * i)).take 8).map Prod.fst))))

/-- The destination of a command lies in a page, in part at least (R189). -/
def State.writesPage (s : State) (core : Nat) (g : Group) (va size : Nat) (c : CopyCmd) : Bool :=
  let there (a : Addr) (n : Nat) : Bool := overlap (a.toNat % 2 ^ 57) n va size
  match c.kind with
  | .lin dst _ _ ds len => !ds && there dst len
  | .load _ _ _ => false
  | .store r org _ | .reduce r org _ =>
    (List.range (shapeBox r 1 * shapeBox r 2 * shapeBox r 3)).any (fun row => (boxRun r org row).any (fun x => there x.1 x.2))
  | .multi _ list count [] _ len => ((s.listed core c g list count).map (fun ds => ds.any (fun d => there d len))).getD true
  | .multi _ _ _ (d :: ds) _ len => (d :: ds).any (fun d => there d len)

/-- A word waits for a fault record of a page and issues again, or raises PAGE_FAULT where there is no queue (R359, R360). -/
def State.wordFault (s : State) (h : Here) (va : Nat) (need : Need) (t : Trap) : State :=
  if s.hasQueue h.g.part h.g.asid.toNat then
    let (s1, token) := s.reportFault h.g.core h.g.part h.g.asid va need
    s1.putWave h (h.w.stallAt h.k (.fetch token t.addr))
  else s.takeTrap h t

/-- PUBL of a page (R189, R358). -/
def State.publish (s : State) (h : Here) (cov : Mask) (va : Nat) (a : Addr) : State :=
  let trap (c : Cause) : Trap := Trap.named h.w c cov va a
  match canonical a with
  | none => s.takeTrap h (Trap.named h.w .pageFault cov (va + 1) a)
  | some x =>
    match s.walk h.g.part h.g.asid.toNat x with
    | .error .invalid => s.wordFault h x .engineWrite (trap .pageFault)
    | .error (.poison b) => (s.poisonMet h.g.core h.g.part h.g.asid b).takeTrap h (trap .translationPoison)
    | .error (.beyond x) => { s with beyond := some (h.g.part, x) }
    | .ok l =>
      if l.back ≠ 1 ∨ !l.wr ∨ !(s.part h.g.part).ownsKey l.key then s.takeTrap h (trap .permission)
      else if (s.core h.g.core).copies.any (fun c => c.ctx == h.ctx && c.wave == h.wv && s.writesPage h.g.core h.g l.va l.size c) then
        s.putWave h (h.w.stallAt h.k .stall)
      else
        (s.goesOn h).startBump h.g.part h.g.asid.toNat (some l.addr) none

/-- PUBL (R189). -/
def execPubl (g : Guard) (va : Reg) (s : State) : Host.Outcome State Fault Refusal :=
  s.command g (fun h cov => h.w.agree64 cov va.toNat) (fun h cov a => s.publish h cov va.toNat a)

/-- WVSEL (R190). -/
def execWvsel (g : Guard) (va : Reg) (s : State) : Host.Outcome State Fault Refusal :=
  s.command g
    (fun h cov => do
      let v ← h.w.agree cov va.toNat
      if 7 < v.toNat then .error (Trap.named h.w .illegalOpcode cov va.toNat 0) else .ok (v.setWidth 3))
    (fun h _ v => s.putWave h { h.w.advance h.k with tag := v })

end Sys2Proof.Machine
end

