-- ==== Sys2Proof/Machine/Braid.lean ====
section
/-! DEFINITION. The braid: COLL, COLLWT, contributions, sums, results (R192, R394–R399). -/

namespace Sys2Proof.Machine

/-! ## Collective records (R394) -/

/-- A field of a collective record. -/
def collField (r : BitVec 512) (hi lo : Nat) : Nat := bits r.toNat hi lo
/-- CID. -/
def collCid (r : BitVec 512) : Nat := collField r 511 480
/-- RANK. -/
def collRank (r : BitVec 512) : Nat := collField r 447 432
/-- NRANK. -/
def collRanks (r : BitVec 512) : Nat := collField r 431 416
/-- COMP. -/
def collComp (r : BitVec 512) : Bool := r.getLsbD 402
/-- DT. -/
def collDt (r : BitVec 512) : Nat := collField r 401 400
/-- OP. -/
def collOp (r : BitVec 512) : Nat := collField r 391 384
/-- COUNT. -/
def collCount (r : BitVec 512) : Nat := collField r 351 320
/-- L, the elements of one chunk (R395). -/
def collChunk (r : BitVec 512) : Nat := collCount r / collRanks r
/-- An address: 0 SRC, 1 DST, 2 RESID, 3 GROUP, 4 READYA. -/
def collAddr (r : BitVec 512) (i : Nat) : Addr := r.extractLsb' (64 * i) 64

/-- A record that COLL refuses (R394). R394 gives NRANK the range 1–512 and names no case for a value outside it: that it is ENGINE_SHAPE too
is the model's choice (log entry 93). -/
def collBad (r : BitVec 512) : Bool :=
  collField r 479 448 != 0 || collField r 415 403 != 0 || collField r 399 392 != 0 || decide (1 < collDt r) || decide (2 < collOp r) ||
  decide (collRanks r < 1) || decide (512 < collRanks r) || decide (collRanks r ≤ collRank r) || collCount r == 0 ||
  collCount r % (16 * collRanks r) != 0 || (collComp r && (collDt r != 0 || collOp r == 2)) ||
  (List.range 5).any (fun i => (collAddr r i).toNat % 4 != 0)

/-! ## Words the braid reads and writes -/

/-- 4-byte elements, `none` where a byte was uncorrectable (R303). -/
def wordsOf (bs : List (Byte × Bool)) (n : Nat) : List (Option Word) :=
  (List.range n).map (fun i =>
    let l := (bs.drop (4 * i)).take 4
    if l.any (fun b => b.2) then none else some (BitVec.ofNat 32 (leNat (l.map Prod.fst))))

/-- The bytes of elements. -/
def bytesOfWords (ws : List (Option Word)) : List (Byte × Bool) :=
  ws.flatMap (fun w => match w with
    | none => List.replicate 4 (0, true)
    | some x => (bytesOf 4 x.toNat).map (fun b => (b, false)))

/-- The engine of a COLL. -/
def Coll.engine (c : Coll) (g : Group) : Engine := ⟨c.core, c.ctx, g, c.backing.toNat⟩

/-- A COLL replaced. -/
def State.setColl (s : State) (id : Nat) (c : Coll) : State := { s with colls := Map.insert s.colls id c }

/-- A COLL ends in a fault, delivered at its COLLWT (R399). -/
def State.collFault (s : State) (id : Nat) (c : Coll) (cause : Cause) (a : Addr) : State :=
  { s.engineFault c.ctx c.wave ⟨.coll c.tag, none, cause, a, id⟩ with colls := Map.erase s.colls id }

/-- A remote operation of a COLL. -/
def Coll.remote (c : Coll) (id window addr : Nat) (va : Addr) (op : FabricOp) : RemoteOp :=
  { ctx := c.ctx, core := c.core, wave := c.wave, slot := 0, thread := 0, pc := 0, word := id, off := 0,
    cover := some (.coll c.tag), coll := some id, serial := none, window := window, addr := BitVec.ofNat 40 addr, va := va,
    op := op, epoch := 0, firstSent := 0, lastSent := 0, sends := 0, interval := 50000, status := .queued, telem := noElem,
    gen := none }

/-- What a stop makes of a COLL: it waits for its fault record, it faults, or it asks peers for what it reads, as far as the outstanding list
has room. -/
def State.collStop (s : State) (id : Nat) (c : Coll) : EngineStop → State
  | .wait t a => s.setColl id { c with token := some t, va := a }
  | .fail cause a => s.collFault id c cause a
  | .peers ps =>
    let room := Config.requestsInFlight - (s.remote.filter (fun o => o.2.core == c.core)).length
    (ps.take room).foldl (fun s p => s.startRemote (c.remote id p.2.1 p.2.2.1 p.1 (.load p.2.2.2))) (s.setColl id c)

/-- The context's partition, of a resident or of a saved group. -/
def State.partOf (s : State) (ctx : Nat) : Option Nat :=
  match Map.find s.groups ctx with
  | some g => some g.part
  | none => s.saved.findSome? (fun x => (x.2.groups.find? (fun g => g.ctx == ctx)).map (fun g => g.group.part))

/-- Elements of SRC: those of one chunk for an allgather (R395). -/
def collSrc (r : BitVec 512) : Nat := if collOp r = 2 then collChunk r else collCount r

/-- Every contribution has been sent: an allgather sends none. -/
def Coll.allSent (c : Coll) : Bool := c.started && (collOp c.record == 2 || decide (4 * collSrc c.record ≤ c.sent))

/-- The COLL stands inside a segment of 64 KiB, of SRC or of its results, which it ends before it stops (R336, R399). -/
def Coll.midSegment (c : Coll) : Bool :=
  c.started && ((!c.allSent && c.sent % 65536 != 0) || (!c.summed && c.stores % 32 != 0))

/-- A COLL waits for bytes that it has asked a peer for. -/
def State.collAwaits (s : State) (id : Nat) : Bool := s.remote.any (fun o => o.2.coll == some id && o.2.open_ && !opWrites o.2.op)

/-- The braid may go on with a COLL: it waits for no record and no peer, and begins no segment while its group is being stopped (R336). -/
def State.collRuns (s : State) (id : Nat) (c : Coll) : Bool :=
  c.token.isNone && !s.collAwaits id && (c.midSegment || !s.halts c.ctx)

/-- Lanes of at most 16 bytes that a write of elements takes at targets: window, address, the byte it starts at, bytes. -/
def peerCuts : Nat → List (Target × Nat) → List (Nat × Nat × Nat × Nat)
  | _, [] => []
  | i, (.peer w x, n) :: rest => (cuts16 x n).map (fun (j, k) => (w, x + j, i + j, k)) ++ peerCuts (i + n) rest
  | i, (_, n) :: rest => peerCuts (i + n) rest

/-- Elements stored at targets from an address on: those of a peer as lanes of `op`, the others line by line. -/
def State.storeSpots (s : State) (e : Engine) (id : Nat) (c : Coll) (a : Addr) (bs : List (Byte × Bool)) (ts : List (Target × Nat))
    (op : Nat → List (Byte × Bool) → FabricOp) : State :=
  let here := (ts.foldl (fun (acc : State × Nat) t =>
    (match t.1 with
     | .peer _ _ => acc.1
     | .dev _ _ | .host _ | .mmio _ | .scratch _ _ | .share _ _ => acc.1.engineStore e.core id e.g.part t.1 ((bs.drop acc.2).take t.2),
     acc.2 + t.2)) (s, 0)).1
  (peerCuts 0 ts).foldl (fun s p =>
    s.startRemote (c.remote id p.1 p.2.1 (a + BitVec.ofNat 64 p.2.2.1) (op p.2.2.1 ((bs.drop p.2.2.1).take p.2.2.2)))) here

/-- A plain store of bytes to a peer. -/
def plainStore (l : List (Byte × Bool)) : FabricOp :=
  .store l.length (BitVec.ofNat 128 (leNat (l.map Prod.fst))) (BitVec.ofNat 16 (2 ^ l.length - 1)) (l.any (fun b => b.2))

/-- Where elements stored at an address go, if the outstanding list has room for them, or why they cannot be stored. -/
inductive CollRun
  | stop (x : EngineStop)
  | full
  | go (c : Coll)
  deriving DecidableEq, Repr

/-- The address of a rank's DST as this device sees it (R395). -/
def State.rankDst (s : State) (e : Engine) (c : Coll) (r : Nat) : State × Except EngineStop Addr :=
  if r = collRank c.record then (s, .ok (collAddr c.record 1))
  else
    match s.engineRead e c.got (.mem (collAddr c.record 3 + BitVec.ofNat 64 (8 * r))) 8 with
    | (s1, .error x) => (s1, .error x)
    | (s1, .ok bs) => (s1, .ok (BitVec.ofNat 64 (leNat (bs.map Prod.fst))))

/-- Where bytes of a rank's DST lie: those of another rank in peer memory, or a stop. -/
def State.rankSpots (s : State) (e : Engine) (c : Coll) (r n : Nat) (a : Addr) : State × Except EngineStop (List (Target × Nat)) :=
  match s.spotsAt e .engineWrite (.mem a) n (n + 1) with
  | (s1, .error x) => (s1, .error x)
  | (s1, .ok ts) =>
    if r = collRank c.record ∨ ts.all (fun t => match t.1 with | .peer _ _ => true | .dev _ _ | .host _ | .mmio _ | .scratch _ _ | .share _ _ => false) then
      (s1, .ok ts)
    else (s1, .error (.fail .permission a))

/-! ## Results (R395, R398) -/

/-- The sum of the contributions to one element; a poisoned one poisons it. -/
def collSum (dt : Nat) (xs : List (Option Word)) : Option Word :=
  if xs.any (fun x => x.isNone) then none
  else some (arg (gopCombine (if dt = 0 then .fadd else .add) .rne 0 (xs.filterMap id)).vals 0)

/-- A rank's contribution to an element of this rank's chunk, if it has come. -/
def Coll.partAt (c : Coll) (r i : Nat) : Option (Option Word) :=
  (c.parts.find? (fun p => p.1 == r && decide (p.2.1 ≤ i) && decide (i < p.2.1 + p.2.2.length))).map (fun p => p.2.2[i - p.2.1]?.getD none)

/-- This rank's chunk as every rank is to hold it. -/
def Coll.chunk (c : Coll) : List (Option Word) :=
  if collOp c.record = 2 then c.own
  else (List.range (collChunk c.record)).map (fun i =>
    collSum (collDt c.record) ((List.range (collRanks c.record)).map (fun r => (c.partAt r i).getD none)))

/-- Every contribution to this rank's chunk is there. -/
def Coll.gathered (c : Coll) : Bool :=
  c.started && (collOp c.record == 2 ||
    (List.range (collRanks c.record)).all (fun r => (List.range (collChunk c.record)).all (fun i => (c.partAt r i).isSome)))

/-- Elements of DST that this rank is to receive. -/
def collDue (r : BitVec 512) : Nat := if collOp r = 1 then collChunk r else collCount r

/-- The first byte of DST that this rank's chunk is stored at. -/
def collFirst (r : BitVec 512) : Nat := if collOp r = 1 then 0 else 4 * collChunk r * collRank r

/-- Every element that this rank is to receive is written (R399). -/
def Coll.received (c : Coll) : Bool :=
  (List.range (4 * collDue c.record)).all (fun i => c.written.any (fun w => decide (w.1 ≤ i) && decide (i < w.1 + w.2)))

/-- A COLL is complete (R399). -/
def State.collDone (s : State) (id : Nat) (c : Coll) : Bool :=
  c.allSent && c.summed && c.received && s.remote.all (fun o => o.2.coll != some id || !o.2.open_)

/-- A COLL that is complete leaves the list, unless that waits for its event. -/
def State.collSettle (s : State) (id : Nat) : State :=
  match Map.find s.colls id with
  | none => s
  | some c => if !s.deferred && s.collDone id c then { s with colls := Map.erase s.colls id } else s

/-- Ranks that this rank's chunk is stored to. -/
def collRankList (r : BitVec 512) : List Nat := if collOp r = 1 then [collRank r] else List.range (collRanks r)

/-- Stretches of 512 elements that a chunk is stored in. -/
def collStretches (r : BitVec 512) : Nat := (collChunk r + 511) / 512

/-- The next stretch of this rank's chunk stored to a rank's DST: a peer's part goes as results that name the COLL (log entry 32). -/
def State.collStretch (s : State) (id : Nat) (c : Coll) (g : Group) : State × CollRun :=
  let e := c.engine g
  let n := collStretches c.record
  let r := (collRankList c.record)[c.stores / n]?.getD 0
  let i := 512 * (c.stores % n)
  match s.rankDst e c r with
  | (s1, .error x) => (s1, .stop x)
  | (s1, .ok d) =>
    let bs := bytesOfWords ((c.chunk.drop i).take 512)
    let off := collFirst c.record + 4 * i
    let a := d + BitVec.ofNat 64 off
    match s1.rankSpots e c r bs.length a with
    | (s2, .error x) => (s2, .stop x)
    | (s2, .ok ts) =>
      let lanes := (peerCuts 0 ts).length
      if s2.remoteFull c.core c.ctx lanes lanes then (s2, .full)
      else
        (s2.storeSpots e id c a bs ts (fun j l =>
          .result (collCid c.record) (off + j) l.length (BitVec.ofNat 128 (leNat (l.map Prod.fst))) (l.any (fun b => b.2))),
         .go { c with
           stores := c.stores + 1
           summed := decide (n * (collRankList c.record).length ≤ c.stores + 1)
           written := if r = collRank c.record then (off, bs.length) :: c.written else c.written
           got := [] })

/-- Stretches stored until all are, or the COLL waits, at most `fuel` of them. -/
def State.collStores (s : State) (id : Nat) : Nat → State
  | 0 => s
  | fuel + 1 =>
    match Map.find s.colls id with
    | none => s
    | some c =>
      match Map.find s.groups c.ctx with
      | none => s
      | some g =>
        if !c.gathered || c.summed || !s.collRuns id c then s
        else
          match s.collStretch id c g with
          | (s1, .stop x) => s1.collStop id c x
          | (s1, .full) => s1
          | (s1, .go c1) => (s1.setColl id c1).collStores id fuel

/-- The chunk of a COLL is stored to the ranks once every contribution to it is there. -/
def State.collAdvance (s : State) (id : Nat) : State :=
  match Map.find s.colls id with
  | none => s
  | some c => (s.collStores id (collStretches c.record * collRanks c.record)).collSettle id

/-! ## The start of a bucket (R396, R397) -/

/-- READYA has reached READY. -/
def collReady (r : BitVec 512) (v : Word) : Bool := decide ((v - r.extractLsb' 352 32).toNat < 2 ^ 31)

/-- What a rank contributes, and its new residual (R397). -/
def collForm (r : BitVec 512) (src res : List (Option Word)) : List (Option Word) × List (Option Word) :=
  if !collComp r then (src, [])
  else
    let F := FpFmt.f32
    let ys := src.zipWith (fun x y => match x, y with
      | some x, some y => some (F.add .rne (F.num x.toNat) (F.num y.toNat)).bits
      | _, _ => none) res
    let blk (b : Nat) : Option Nat :=
      let l := (ys.drop (16 * b)).take 16
      if l.any (fun y => y.isNone) then none else some (bxEncode 4 .rne (l.filterMap id)).bits
    let sent := (List.range src.length).map (fun i => (blk (i / 16)).map (fun b => BitVec.ofNat 32 (sxDecode 4 b (i % 16))))
    (sent, ys.zipWith (fun y z => match y, z with
      | some y, some z => some (BitVec.ofNat 32 (F.add .rne (F.num y) (F.num z.toNat).neg).bits)
      | _, _ => none) sent)

/-- READYA is read until it has reached READY (R396); what a peer gave is asked for anew where it has not. -/
def State.braidPoll (s : State) (id : Nat) : State :=
  match Map.find s.colls id with
  | none => s
  | some c =>
    match Map.find s.groups c.ctx with
    | none => s
    | some g =>
      if c.ready || !s.collRuns id c then s
      else
        match s.engineRead (c.engine g) c.got (.mem (collAddr c.record 4)) 4 with
        | (s1, .error x) => s1.collStop id c x
        | (s1, .ok bs) => s1.setColl id { c with ready := collReady c.record (BitVec.ofNat 32 (leNat (bs.map Prod.fst))), got := [] }

/-- The bucket is read, with its residuals, and compressed (R396, R397). -/
def State.braidRead (s : State) (id : Nat) : State :=
  match Map.find s.colls id with
  | none => s
  | some c =>
    match Map.find s.groups c.ctx with
    | none => s
    | some g =>
      if !c.ready || c.started || !s.collRuns id c then s
      else
        let n := collSrc c.record
        match s.engineRead (c.engine g) c.got (.mem (collAddr c.record 0)) (4 * n) with
        | (s1, .error x) => s1.collStop id c x
        | (s1, .ok src) =>
          match (if collComp c.record then s1.engineRead (c.engine g) c.got (.mem (collAddr c.record 2)) (4 * n) else (s1, .ok [])) with
          | (s2, .error x) => s2.collStop id c x
          | (s2, .ok res) =>
            let f := collForm c.record (wordsOf src n) (wordsOf res n)
            s2.setColl id { c with started := true, own := f.1, left := f.2, got := [] }

/-- Elements of the next piece of the bucket: at most 512, within one chunk and one segment, so that its frame stays below 4 KiB (R392; log
entry 85). -/
def Coll.pieceLen (c : Coll) : Nat :=
  let i := c.sent / 4
  min 512 (min (collChunk c.record - i % collChunk c.record) (16384 - i % 16384))

/-- The next piece of the bucket: its residuals are written, and it is contributed to the rank that owns it (R395, R397). -/
def State.collPiece (s : State) (id : Nat) (c : Coll) (g : Group) : State × CollRun :=
  let e := c.engine g
  let i := c.sent / 4
  let n := c.pieceLen
  let r := i / collChunk c.record
  let first := i % collChunk c.record
  let data := (c.own.drop i).take n
  let bs := bytesOfWords ((c.left.drop i).take n)
  let res := collAddr c.record 2 + BitVec.ofNat 64 (4 * i)
  match s.rankDst e c r with
  | (s1, .error x) => (s1, .stop x)
  | (s1, .ok d) =>
    match (if r = collRank c.record then (s1, .ok []) else s1.rankSpots e c r 4 d), s1.spotsAt e .engineWrite (.mem res) bs.length (bs.length + 1) with
    | (s2, .error x), _ => (s2, .stop x)
    | (_, .ok _), (s3, .error x) => (s3, .stop x)
    | (_, .ok dsts), (s3, .ok ts) =>
      let lanes := (peerCuts 0 ts).length + dsts.length
      if s3.remoteFull c.core c.ctx lanes lanes then (s3, .full)
      else
        let s4 := s3.storeSpots e id c res bs ts (fun _ l => plainStore l)
        let c1 := { c with sent := c.sent + 4 * n, got := [] }
        match dsts with
        | (.peer w x, _) :: _ => (s4.startRemote (c.remote id w x d (.contribution (collCid c.record) (collRank c.record) first data)), .go c1)
        | _ => (s4, .go { c1 with parts := c.parts ++ [(r, first, data)] })

/-- Pieces contributed until all are, or the COLL waits, at most `fuel` of them; where the braid's work stays queued, those of one segment
of 64 KiB. -/
def State.collSend (s : State) (id : Nat) : Nat → State
  | 0 => s
  | fuel + 1 =>
    match Map.find s.colls id with
    | none => s
    | some c =>
      match Map.find s.groups c.ctx with
      | none => s
      | some g =>
        if !c.started || c.allSent || !s.collRuns id c then s
        else
          match s.collPiece id c g with
          | (s1, .stop x) => s1.collStop id c x
          | (s1, .full) => s1
          | (s1, .go c1) =>
            let s2 := s1.setColl id c1
            if s2.deferred && c1.sent % 65536 == 0 then s2 else s2.collSend id fuel

/-- A COLL goes on as far as it may: READYA, the bucket, its contributions, the results (R395–R397). -/
def State.braidTry (s : State) (id : Nat) : State :=
  match Map.find s.colls id with
  | none => s
  | some c => (((s.braidPoll id).braidRead id).collSend id (collSrc c.record / 16 + 1)).collAdvance id

/-- A COLL goes on at once where nothing stays queued and its core is not paused. -/
def State.braidNow (s : State) (id : Nat) : State :=
  if s.deferred || !(Map.find s.colls id).any (fun c => s.coreUp c.core) then s else s.braidTry id

/-- The bytes that a peer gives to a COLL, which goes on once it waits for none. -/
def State.collGiven (s : State) (id : Nat) (o : RemoteOp) (n : Nat) (v : BitVec 128) (bad : Bool) : State :=
  match Map.find s.colls id with
  | none => s
  | some c => (s.setColl id { c with got := c.got ++ [(o.va, bytesOf n v.toNat, bad)] }).braidNow id

/-! ## The words and the events -/

/-- A peer's load of a slot's record (R192, R353). -/
def Here.asks (h : Here) (tag : Nat) (o : RemoteOp) : Bool :=
  o.ctx == h.ctx && o.wave == h.wv && o.slot == h.w.slots[h.k].label && o.pc == h.w.slots[h.k].pc && o.cover == some (.coll tag) && o.coll.isNone

/-- The load of a part of a record from a peer, which the slot waits for. -/
def Here.recordAsk (h : Here) (id tag : Nat) (p : PeerPart) : RemoteOp :=
  { ctx := h.ctx, core := h.g.core, wave := h.wv, slot := h.w.slots[h.k].label, thread := 0, pc := h.w.slots[h.k].pc, word := id, off := 0,
    cover := some (.coll tag), coll := none, serial := none, window := p.2.1, addr := BitVec.ofNat 40 p.2.2.1, va := p.1,
    op := .load p.2.2.2, epoch := 0, firstSent := 0, lastSent := 0, sends := 0, interval := 50000, status := .queued, telem := noElem,
    gen := none }

/-- The bytes that a peer gives of a record reach the slot whose word they are for. -/
def State.recordGiven (s : State) (o : RemoteOp) (n : Nat) (v : BitVec 128) (bad : Bool) : State :=
  s.modWave o.ctx o.wave (fun w => { w with slots := w.slots.map (fun p =>
    if p.label = o.slot ∧ p.pc = o.pc then { p with got := p.got ++ [(o.va, bytesOf n v.toNat, bad)] } else p) })

/-- Why a read of the record by COLL stops: it waits for its fault record, it traps, or it asks peers. -/
def State.recordStop (s : State) (h : Here) (cov : Mask) (va : Reg) (tag : Nat) : EngineStop → State
  | .wait t x => s.putWave h (h.w.stallAt h.k (.fetch t x))
  | .fail cause x => s.takeTrap h (Trap.named h.w cause cov (pairReg va (canonical x).isNone) x)
  | .peers ps =>
    let s1 := s.putWave h (h.w.stallAt h.k .stall)
    if s1.remoteFull h.g.core h.ctx ps.length 0 then s1 else ps.foldl (fun s p => s.startRemote (h.recordAsk s1.nextId tag p)) s1.takeId

/-- A COLL joins the list with its record; results that came early count (R394, R399). -/
def State.addColl (s : State) (h : Here) (tag : Nat) (r : BitVec 512) : State :=
  let id := s.nextId
  let mine (x : Nat × Nat × Nat × Nat) : Bool := x.1 == h.g.part && x.2.1 == collCid r
  let s1 := { s.takeId.goesOn h with early := s.early.filter (fun x => !mine x) }
  let s2 := s1.setColl id
    { id := id, ctx := h.ctx, wave := h.wv, core := h.g.core, tag := tag, record := r, ready := false, started := false, own := [], sent := 0,
      left := [], parts := [], stores := 0, summed := false, written := (s.early.filter mine).map (fun x => x.2.2), backing := h.w.tag,
      issued := (s.core h.g.core).clock.toNat, token := none, va := 0, got := [] }
  if s.deferred then s2 else s2.braidTry id

/-- COLL of a record (R192, R394). -/
def State.startColl (s : State) (h : Here) (cov : Mask) (va : Reg) (tag : Nat) (a : Addr) : State :=
  let asked := (s.remote.filter (fun o => h.asks tag o.2)).map Prod.snd
  if s.colls.any (fun c => c.2.ctx == h.ctx && c.2.wave == h.wv && c.2.tag == tag) || asked.any RemoteOp.open_ then
    s.putWave h (h.w.stallAt h.k .stall)
  else
    match asked with
    | o :: _ =>
      { s with remote := s.remote.filter (fun x => !h.asks tag x.2) }.takeTrap h (Trap.named h.w o.status.cause cov va.toNat o.va)
    | [] =>
      match s.engineRead h.engine h.w.slots[h.k].got (.mem a) 64 with
      | (s1, .error x) => s1.recordStop h cov va tag x
      | (s1, .ok bs) =>
        let r : BitVec 512 := BitVec.ofNat 512 (leNat (bs.map Prod.fst))
        if collBad r then s1.takeTrap h (Trap.of .engineShape cov) else s1.addColl h tag r

/-- COLL (R192). -/
def execColl (g : Guard) (va : Reg) (tag : BitVec 3) (s : State) : Host.Outcome State Fault Refusal :=
  s.command g (fun h cov => h.w.agree64 cov va.toNat) (fun h cov a => s.startColl h cov va tag.toNat a)

/-- COLLWT (R192): unlike CPYWT it is said of no COLLWT that it acts whatever EXEC and the guard hold, so one without a covered thread has no
effect (log entry 76). -/
def execCollwt (g : Guard) (tag : BitVec 3) (s : State) : Host.Outcome State Fault Refusal :=
  s.act (fun h => if h.cov g = 0 then s.goesOn h else s.waitWord h (s.colls.any (fun c => c.2.ctx == h.ctx && c.2.wave == h.wv && c.2.tag == tag.toNat)) (.coll tag.toNat))

/-- The braid has something left to do for a COLL that it may do. -/
def State.braidMoves (s : State) (id : Nat) (c : Coll) : Bool :=
  s.coreUp c.core && (!s.deferred || s.aged c.core c.issued) && s.collRuns id c && (!c.allSent || (c.gathered && !c.summed))

/-- BRAID_READY (R307, R336, R396): the braid looks at the ready counter, once the command is old enough to leave its core, or goes on with
what it has begun. -/
def execBraidReady (coll : Nat) (s : State) : Host.Outcome State Fault Refusal :=
  s.event ((Map.find s.colls coll).any (fun c => s.braidMoves coll c)) (s.braidTry coll)

/-- COLL_COMPLETE (R399). -/
def execCollComplete (coll : Nat) (s : State) : Host.Outcome State Fault Refusal :=
  s.event ((Map.find s.colls coll).any (fun c => s.collDone coll c)) { s with colls := Map.erase s.colls coll }

end Sys2Proof.Machine
end

