-- ==== Sys2Proof/Machine/MatrixOrder.lean ====
section
/-! DEFINITION. Matrix order on a core: images, what each instruction does at its place, batches, drains (R197–R214, R276,
R281–R287, R303). -/

namespace Sys2Proof.Machine

/-! ## Faults of a batch (R198) -/

/-- The fault of a batch that stands first in matrix order is kept. -/
def Wave.batchFault (w : Wave) (f : AsyncFault) : Wave :=
  if w.faults.any (fun x => x.cover == f.cover && decide (x.rank ≤ f.rank)) then w
  else { w with faults := w.faults.filter (fun x => x.cover != f.cover) ++ [f] }

/-- The words of matrix order that join no batch (R198). -/
def MatOp.unbatched : MatOp → Bool
  | .ard _ _ _ _ _ | .achk _ _ _ => true
  | .tld _ _ _ _ _ _ _ | .swap | .mma _ _ _ _ _ | .mmas _ _ _ _ _ _ _ | .mmag _ _ _ _ _ _ _ _ _ _ | .aclr _ _
  | .adrain _ _ _ _ _ | .aflip _ _ _ _ => false

/-- The instruction has begun: an MMAG that waits for its next group has. -/
def MatEntry.begun (e : MatEntry) : Bool :=
  e.phase != .queued || (match e.op with
    | .mmag _ _ _ _ _ _ _ _ _ next => decide (0 < next)
    | .tld _ _ _ _ _ _ _ | .swap | .mma _ _ _ _ _ | .mmas _ _ _ _ _ _ _ | .aclr _ _ | .adrain _ _ _ _ _ | .ard _ _ _ _ _
    | .achk _ _ _ | .aflip _ _ _ _ => false)

/-- The slot of a TLD that is to have no effect goes on at its next word. -/
def State.passTile (s : State) (e : MatEntry) : State :=
  s.modWave e.ctx e.wave (Wave.everySlot (fun w => if w.slots[e.slot].wait = some (.tile e.id) then w.advance e.slot else w))

/-- A member of a batch meets a fault: later members that have not begun have no effect. -/
def State.matFault (s : State) (core ctx wv : Nat) (batch : BitVec 16) (rank : Nat) (cause : Cause) (a : Addr) : State :=
  let gone (e : MatEntry) : Bool := e.ctx == ctx && e.wave == wv && e.batch == batch && decide (rank < e.id) && !e.begun && !e.op.unbatched
  let s1 := s.modWave ctx wv (fun w => w.batchFault ⟨.batch batch, none, cause, a, rank⟩)
  let s2 := ((s.core core).queue.filter gone).foldl State.passTile s1
  (s2.modCore core (fun c => { c with queue := c.queue.filter (fun e => !gone e) })).dropAsks core

/-- A member that has not begun and follows, in its batch, one that has met a fault: it has no effect (R198). -/
def State.voided (s : State) (e : MatEntry) : Bool :=
  !e.begun && !e.op.unbatched &&
  ((Map.find s.groups e.ctx).bind (fun g => g.waves[e.wave]?)).any (fun w =>
    w.faults.any (fun f => f.cover == .batch e.batch && decide (f.rank < e.id)))

/-! ## Images (R202, R203, R206) -/

/-- What an image is read by. -/
structure ImageAsk where
  fw : Word
  west : Bool
  nk : Nat
  nn : Nat
  a : Addr
  pitch : Nat
  scale : Addr
  deriving DecidableEq, Repr

/-- Stretches that no 64-byte line cuts. -/
def lineCuts (a : Addr) (n : Nat) : List (Addr × Nat) :=
  ((List.range n).filter (fun i => i == 0 || (a.toNat + i) % 64 == 0)).map (fun i =>
    (a + BitVec.ofNat 64 i, min (n - i) (64 - (a.toNat + i) % 64)))

/-- The stored rows of an image: their first bytes. -/
def ImageAsk.rows (q : ImageAsk) : List Addr :=
  (List.range (imageShape (fwBF q.fw) q.west q.nk q.nn).1).map (fun r => q.a + BitVec.ofNat 64 (r * q.pitch))

/-- Bytes read of each stored row. -/
def ImageAsk.width (q : ImageAsk) : Nat := (imageShape (fwBF q.fw) q.west q.nk q.nn).2

/-- The image has column scales. -/
def ImageAsk.scaled (q : ImageAsk) : Bool := decide (fwBF q.fw ≤ 1)

/-- Places of an image where an access stops. -/
def State.probe (s : State) (e : Engine) (need : Need) : List (Addr × Nat) → State × List EngineStop
  | [] => (s, [])
  | (a, n) :: rest =>
    let (s1, r) := s.spotAt e need (.mem a) n
    let (s2, more) := s1.probe e need rest
    (s2, match r with | .ok _ => more | .error x => x :: more)

/-- The stage of a stop, then its address (R291). -/
def EngineStop.order : EngineStop → Nat
  | .wait _ _ | .peers _ => 2 ^ 64
  | .fail c a =>
    (if c = .permission then 4 * 2 ^ 64 else if c = .translationPoison then 3 * 2 ^ 64 else if (canonical a).isNone then 0 else 2 * 2 ^ 64) + a.toNat

/-- The stop of the earliest stage, at its lowest address. -/
def firstStop : List EngineStop → Option EngineStop
  | [] => none
  | x :: xs => match firstStop xs with
    | none => some x
    | some y => if y.order < x.order then some y else some x

/-- The lowest of some addresses. -/
def lowestAddr : List Addr → Option Addr
  | [] => none
  | a :: rest => match lowestAddr rest with
    | none => some a
    | some b => if b.toNat < a.toNat then some b else some a

/-- Rows of bytes read, one after another. -/
def State.readRows (s : State) (e : Engine) (need : Need) (got : Given) (n : Nat) : List Addr → State × List (List (Byte × Bool))
  | [] => (s, [])
  | a :: rest =>
    let (s1, ts) := s.spotsAt e need (.mem a) n (n + 1)
    let (s2, bs) := s1.readSpots e.g.part got a (match ts with | .ok l => l | .error _ => [])
    let (s3, more) := s2.readRows e need got n rest
    (s3, bs :: more)

/-- The parts of an image in peer memory that have not been given: address, window, device address, length. -/
def State.peerParts (s : State) (e : Engine) (got : Given) (pieces : List (Addr × Nat)) : List PeerPart :=
  pieces.flatMap (fun (a, n) =>
    match (s.spotAt e .read (.mem a) n).2 with
    | .ok t => ungiven got a [(t, n)]
    | .error _ => [])

/-- What comes of reading an image. -/
inductive ImageRead
  | plane (p : Plane)
  | stop (x : EngineStop)
  deriving DecidableEq, Repr

/-- The plane of an image, or why it is not read; an uncorrectable byte poisons its columns, and a bad scale takes no part in the
comparison (R203, R303). -/
def State.readPlane (s : State) (e : Engine) (got : Given) (q : ImageAsk) : State × ImageRead :=
  let bf := fwBF q.fw
  let pieces := q.rows.flatMap (fun a => lineCuts a q.width) ++ (if q.scaled then lineCuts q.scale (4 * q.nn) else [])
  let (s1, stops) := s.probe e .read pieces
  match firstStop stops, s1.peerParts e got pieces with
  | some x, _ => (s1, .stop x)
  | none, p :: ps => (s1, .stop (.peers (p :: ps)))
  | none, [] =>
    let (s2, rows) := s1.readRows e .read got q.width q.rows
    let (s3, sc) := if q.scaled then s2.readRows e .read got (4 * q.nn) [q.scale] else (s2, [])
    let bytes := rows.map (fun r => r.map Prod.fst)
    let scaleAt (n : Nat) : List (Byte × Bool) := ((sc[0]?.getD []).drop (4 * n)).take 4
    let scales := (List.range q.nn).map (fun n => BitVec.ofNat 32 (leNat ((scaleAt n).map Prod.fst)))
    let good := ((List.range q.nn).filter (fun n => !(scaleAt n).any (fun b => b.2))).map (fun n => scales[n]?.getD 0)
    match lowestAddr ((imageBad bf rows).map (fun (r, j) => q.a + BitVec.ofNat 64 (r * q.pitch + j))) with
    | some a => (s3, .stop (.fail .tritCode a))
    | none =>
      if fwCHK q.fw && q.scaled && good.any (fun x => x != good.headD 0) then (s3, .stop (.fail .engineShape 0))
      else
        let badCols := (rows.zipIdx.flatMap (fun (r, i) => r.zipIdx.flatMap (fun (b, j) => if b.2 then imageCols bf q.west i j else []))) ++
          ((sc[0]?.getD []).zipIdx.filterMap (fun (b, j) => if b.2 then some (j / 4) else none))
        (s3, .plane (planeOf bf q.west q.nk q.nn bytes (if q.scaled then scales else []) badCols))

/-! ## Streamed rows in scratchpad (R205) -/

/-- Fields of the pitches word: RP, and TP in bytes. -/
def rowPitch (p : Word) : Nat := bits p.toNat 13 0
/-- TP in bytes. -/
def tilePitch (p : Word) : Nat := 16 * bits p.toNat 27 14

/-- The scratch address of a streamed row. -/
def rowAddr (base pitches : Word) (i m : Nat) : Word := base + BitVec.ofNat 32 (tilePitch pitches * i + rowPitch pitches * m)

/-- A streamed row read; uncorrectable bytes poison the row as a NaN block does (R303). -/
def State.streamRow (s : State) (ctx : Nat) (g : Group) (fw base pitches : Word) (n i m : Nat) : Stream :=
  let len := rowBytes (fwAF fw) n
  match s.scratchAt ctx g (rowAddr base pitches i m) len with
  | none => Stream.zero n
  | some t =>
    let (_, bs, bad) := s.readAt g.part t len
    let st := streamMem (fwAF fw) n bs
    { st with nan := st.nan || bad }

/-! ## What each instruction does at its place -/

/-- What comes of an instruction at its place. -/
inductive Taken
  /-- it has taken effect; its occupancy -/
  | done (occ : Nat)
  /-- no drain buffer is free -/
  | blocked
  /-- an image's page waits for the service -/
  | waits (token : Nat)
  /-- parts of an image are asked of peers -/
  | asks
  deriving DecidableEq, Repr

/-- The target tiles agree with the format word (R208). -/
def Core.tilesAgree (c : Core) (fw : Word) (ts : List Nat) : Bool :=
  ts.all (fun t => (vget c.tiles t Tile.zero).anchor == fwAlpha fw && (vget c.tiles t Tile.zero).chk == fwCHK fw)

/-- Tiles from one on. -/
def tilesFrom (t n : Nat) : List Nat := (List.range n).map (fun i => t + i)

/-- The rows of a register-form MMA. -/
def mmaRows (fw : Word) (rows : List (List Byte × Word)) (dead : Mask) : List (Nat × Stream × Bool) :=
  rows.zipIdx.map (fun (r, m) =>
    if dead.getLsbD m then (m, Stream.zero 32, true)
    else (m, if fwAF fw = 0 then streamInt8 r.1 else streamSxReg (sxW (sxOf (fwAF fw))) r.1 r.2, false))

/-- Rows added into a tile. -/
def Core.accumulate (c : Core) (p : Plane) (t k0 : Nat) (rows : List (Nat × Stream × Bool)) : Core :=
  { c with tiles := vmod c.tiles t (fun x => x.product p k0 rows) }

/-- Target tiles that keep check vectors. -/
def Core.checks (c : Core) (ts : List Nat) : Nat := ts.countP (fun t => (vget c.tiles t Tile.zero).chk)

/-- Rows of one streamed tile; the rows of parked threads are not read (R410). -/
def State.tileRows (s : State) (ctx : Nat) (g : Group) (fw base pitches : Word) (n i : Nat) (dead : Mask) (ms : List Nat) :
    List (Nat × Stream × Bool) :=
  ms.map (fun m =>
    if g.image.lanes ≤ m then (m, Stream.zero n, false)
    else if dead.getLsbD m then (m, Stream.zero n, true)
    else (m, s.streamRow ctx g fw base pitches n i m, false))

/-- The rows that tiles receive: parked threads feed none (R410). -/
def Image.feeds (i : Image) (rows : List (Nat × Stream × Bool)) : List (Nat × Stream × Bool) := rows.filter (fun r => decide (r.1 < i.lanes))

/-- Logical rows that KC streams. -/
def kRange (kc : Nat) : Nat := 32 * (kc + 1)

/-- A slot that waits for an instruction of matrix order goes on, after a change of its wave. -/
def State.matReturn (s : State) (e : MatEntry) (f : Wave → Wave) : State :=
  s.modWave e.ctx e.wave (Wave.everySlot (fun w => if w.slots[e.slot].wait = some (.matrix e.id) then (f w).advance e.slot else w))

/-- Values for the live threads of several registers. -/
def Wave.writeRegs (w : Wave) (vd : Nat) (vals : List (Lane → Word)) : Wave :=
  vals.zipIdx.foldl (fun w (f, i) => w.writeLanes w.alive (vd + i) .none f) w

/-- ARD at its place (R211). -/
def State.ardEffect (s : State) (core : Nat) (e : MatEntry) (tile : Nat) (raw : Bool) (n0 : Nat) (vd : Reg) : State :=
  match (Map.find s.groups e.ctx).bind (fun g => g.waves[e.wave]?) with
  | none => s
  | some w =>
    let cols := if raw then [n0] else (List.range 8).map (fun i => n0 + i)
    let s1 := s.modCore core (fun c => { c with tiles := vmod c.tiles tile (fun x => x.use (fun i => cols.contains (i % 256) && w.alive.getLsbD (i / 256))) })
    let c := s1.core core
    let t := vget c.tiles tile Tile.zero
    let el (m n : Nat) : Elem := t.el m n
    let conv (m n : Nat) : Nat × Word := convElem 4 t.alpha (el m n) (c.active.scaleFor n)
    let vals : List (Lane → Word) :=
      if raw then
        [fun m => (el m.val n0).x.extractLsb' 0 32, fun m => (el m.val n0).x.extractLsb' 32 32, fun m => (el m.val n0).x.extractLsb' 64 32,
         fun m => BitVec.ofNat 32 (el m.val n0).flagByte]
      else cols.map (fun n => fun m => BitVec.ofNat 32 (conv m.val n).1)
    let flags : Word := if raw then 0 else
      (Mask.lanes w.alive).foldl (fun o m => cols.foldl (fun o n => o ||| (conv m.val n).2) o) 0
    (s1.modGroup e.ctx (fun g => g.raise flags)).matReturn e (fun w => w.writeRegs vd.toNat vals)

/-- A check element converted (R214): check elements have no poison. -/
def convCheck (alpha : Int) (el : Elem) (scale : Word) : Nat × Word := convElem 4 alpha { el with poison := false } scale

/-- ACHK at its place (R214): a tile without check vectors raises ENGINE_SHAPE at the waiting word. -/
def State.achkEffect (s : State) (core : Nat) (e : MatEntry) (tile : Nat) (vd : Reg) : State :=
  match (Map.find s.groups e.ctx).bind (fun g => g.waves[e.wave]?) with
  | none => s
  | some w =>
    let s1 := s.modCore core (fun c => { c with tiles := vmod c.tiles tile (fun x => x.use (fun _ => false)) })
    let c := s1.core core
    let t := vget c.tiles tile Tile.zero
    if !t.chk then
      let s2 := s.modWave e.ctx e.wave (Wave.everySlot (fun w =>
        if w.slots[e.slot].wait = some (.matrix e.id) then w.setSlot e.slot (fun p => { p with wait := none }) else w))
      if w.halt.acts ∧ w.slots[e.slot].wait = some (.matrix e.id) then
        s2.trapIn e.ctx e.wave e.slot (Trap.of .engineShape (w.exec e.slot)) w.slots[e.slot].pc w.slots[e.slot].pc none
      else s2
    else
      let rc (m : Nat) : Nat × Word := convCheck t.alpha (Map.get t.rc m Elem.zero) (c.active.scaleFor 0)
      let cc (n : Nat) : Nat × Word := convCheck t.alpha (Map.get t.cc n Elem.zero) (c.active.scaleFor n)
      let vals : List (Lane → Word) := (fun (m : Lane) => BitVec.ofNat 32 (rc m.val).1) ::
        (List.range 8).map (fun j => fun (m : Lane) => BitVec.ofNat 32 (cc (32 * j + m.val)).1)
      let flags : Word := (Mask.lanes w.alive).foldl (fun o m =>
        (List.range 8).foldl (fun o j => o ||| (cc (32 * j + m.val)).2) (o ||| (rc m.val).2)) 0
      (s1.modGroup e.ctx (fun g => g.raise flags)).matReturn e (fun w => w.writeRegs vd.toNat vals)

/-- One bit of an element inverted (R215). -/
def Tile.flip (t : Tile) (row col bit : Nat) : Tile :=
  t.setEl (256 * row + col) (fun e =>
    if bit < 96 then { e with x := e.x ^^^ ((1 : BitVec 96) <<< bit) }
    else if bit = 96 then { e with inexact := !e.inexact }
    else if bit = 97 then { e with overflow := !e.overflow }
    else { e with poison := !e.poison })

/-- Elements of a drain's box. -/
def drainTotal (shape : BitVec 512) : Nat := shapeBox shape 0 * shapeBox shape 1

/-- An element of a drain's box is clipped (R186, R210). -/
def drainClips (shape : BitVec 512) (coords : List Int) (j : Nat) : Bool := (boxAt shape coords (j * drainBytes (shapeFmt shape))).1.isNone

/-- The first element of a drain's box from one on that is not clipped; the end of the box where none is left. -/
def unclipped (shape : BitVec 512) (coords : List Int) (j : Nat) : Nat :=
  ((List.range (drainTotal shape)).find? (fun i => decide (j ≤ i) && !drainClips shape coords i)).getD (drainTotal shape)

/-- ADRAIN at its place (R286): the tile, and the scales, in a free buffer. -/
def Core.drainTo (c : Core) (e : MatEntry) (tile : Nat) (coords : List Int) (shape : BitVec 512) (add : Bool) (tag : BitVec 3) : Option Core :=
  match (List.range 2).find? (fun i => (vget c.buffers i none).isNone) with
  | none => none
  | some i =>
    let c1 := { c with tiles := vmod c.tiles tile (fun x => x.use (fun _ => true)) }
    let b : DrainBuf := ⟨e.ctx, e.wave, e.batch, e.id, vget c1.tiles tile Tile.zero,
      if c.active.fmt.toNat ≤ 1 then c.active.scales else [], coords, shape, add, unclipped shape coords 0, c.clock.toNat, none, 0, tag⟩
    some { c1 with buffers := vmod c1.buffers i (fun _ => some b) }

/-- An instruction other than MMAG and an unread TLD takes effect at its place. -/
def State.takeEffect (s : State) (core : Nat) (e : MatEntry) : State × Taken :=
  match if s.voided e then none else Map.find s.groups e.ctx with
  | none => (s, .done 0)
  | some g =>
    let c := s.core core
    let mismatch : State × Taken := (s.matFault core e.ctx e.wave e.batch e.id .engineShape 0, .done 0)
    match e.op with
    | .tld _ _ _ _ _ _ _ => (s, .blocked)
    | .mmag _ _ _ _ _ _ _ _ _ _ => (s, .blocked)
    | .swap => (s.modCore core (fun c => { c with active := c.shadow, shadow := c.active }), .done 0)
    | .mma fw tile k0 rows dead =>
      if fwBF fw ≠ c.active.fmt.toNat ∨ !c.tilesAgree fw [tile] then mismatch
      else
        let rs := mmaRows fw rows dead
        (s.modCore core (fun c => c.accumulate c.active tile k0 (g.image.feeds rs)),
         .done (occupancy c.active (fwCT fw) k0 32 (rs.map (fun r => r.2.1)) (c.checks [tile])))
    | .mmas fw tile nt kc base pitches dead =>
      let ts := tilesFrom tile (nt + 1)
      if fwBF fw ≠ c.active.fmt.toNat ∨ !c.tilesAgree fw ts then mismatch
      else
        let all := (List.range (nt + 1)).map (fun i => (tile + i, s.tileRows e.ctx g fw base pitches (kRange kc) i dead (List.range 32)))
        (s.draw.modCore core (fun c => all.foldl (fun c x => c.accumulate c.active x.1 0 (g.image.feeds x.2)) c),
         .done (occupancy c.active (fwCT fw) 0 (kRange kc) (all.flatMap (fun x => x.2.map (fun r => r.2.1))) (c.checks ts)))
    | .aclr fw tile =>
      (s.modCore core (fun c => { c with tiles := vmod c.tiles tile (fun _ => ⟨[], fwAlpha fw, fwCHK fw, [], [], [], false⟩) }), .done 0)
    | .adrain _ tile coords shape add =>
      match c.drainTo e tile coords shape add e.tag with
      | none => (s, .blocked)
      | some c1 => (s.modCore core (fun _ => c1), .done 0)
    | .ard _ tile raw n0 vd => (s.ardEffect core e tile raw n0 vd, .done 0)
    | .achk _ tile vd => (s.achkEffect core e tile vd, .done 0)
    | .aflip tile row col bit => (s.modCore core (fun c => { c with tiles := vmod c.tiles tile (fun x => x.flip row col bit) }), .done 0)

/-! ## Groups of an MMAG (R206, R207, R284) -/

/-- The next group with rows, from a group on. -/
def nextGroup (counts : List Nat) (from_ : Nat) : Option Nat :=
  (List.range counts.length).find? (fun i => decide (from_ ≤ i) && decide (0 < counts[i]?.getD 0))

/-- The image of a group's weights. -/
def weightAsk (fw : Word) (a : Addr) : ImageAsk :=
  if fwBF fw = 1 then ⟨fw, false, 512, 256, a, 128, a + 16384⟩ else ⟨fw, false, 256, 256, a, 52, a + 13312⟩

/-- The rows of a group, by tile: tile number and rows within it. -/
def groupTiles (tile r0 n : Nat) : List (Nat × List Nat) :=
  ((List.range 4).map (fun i => (tile + i, (List.range 32).filter (fun m => decide (r0 ≤ 32 * i + m) && decide (32 * i + m < r0 + n))))).filter
    (fun x => !x.2.isEmpty)

/-- Rows of dead threads in a tile that are not streamed: the instruction adds into the tile, so they are poisoned (R196). -/
def deadRows (n : Nat) (dead : Mask) (ms : List Nat) : List (Nat × Stream × Bool) :=
  ((List.range 32).filter (fun m => dead.getLsbD m && !ms.contains m)).map (fun m => (m, Stream.zero n, true))

/-- A plane that an image makes takes the place of another; the trits of rows out of service stay (R271, R275). -/
def Plane.over (p old : Plane) : Plane := { p with idle := old.idle }

/-- One group of an MMAG, whose image stands in the shadow plane: the swap, its rows; its occupancy (R207, R284). -/
def State.groupEffect (s : State) (core : Nat) (e : MatEntry) (fw : Word) (tile kc : Nat) (base pitches : Word) (dead : Mask)
    (counts : List Nat) (i : Nat) : State × Nat :=
  match Map.find s.groups e.ctx with
  | none => (s, 0)
  | some g =>
    let parts := groupTiles tile (counts.take i).sum (counts[i]?.getD 0)
    let rows := parts.map (fun x => (x.1, s.tileRows e.ctx g fw base pitches (kRange kc) (x.1 - tile) dead x.2, deadRows (kRange kc) dead x.2))
    (s.draw.modCore core (fun c => rows.foldl (fun c x => c.accumulate c.active x.1 0 (g.image.feeds (x.2.1 ++ x.2.2)))
       { c with active := c.shadow, shadow := c.active }),
     occupancy (s.core core).shadow (fwCT fw) 0 (kRange kc) (rows.flatMap (fun x => x.2.1.map (fun r => r.2.1))) 0)

/-- An entry of matrix order replaced. -/
def Core.setEntry (c : Core) (e : MatEntry) : Core := { c with queue := c.queue.map (fun x => if x.id = e.id then e else x) }

/-- An entry leaves matrix order. -/
def Core.dropEntry (c : Core) (id : Nat) : Core := { c with queue := c.queue.filter (fun x => x.id != id) }

/-- A part of an image asked of a peer (R203, R380). -/
def MatEntry.remote (e : MatEntry) (core : Nat) (p : PeerPart) : RemoteOp :=
  { ctx := e.ctx, core := core, wave := e.wave, slot := 0, thread := 0, pc := 0, word := e.id, off := 0,
    cover := some (.batch e.batch), coll := none, serial := none, window := p.2.1, addr := BitVec.ofNat 40 p.2.2.1, va := p.1,
    op := .load p.2.2.2, epoch := 0, firstSent := 0, lastSent := 0, sends := 0, interval := 50000, status := .queued, telem := noElem, gen := none }

/-- The parts of an image that peers hold are asked for, once, where the outstanding list has room for as many (R256, R380); else for so many as
it has room for. -/
def State.askPeers (s : State) (core : Nat) (e : MatEntry) (parts : List PeerPart) : State :=
  let ps := parts.take (Config.requestsInFlight - (s.remote.filter (fun p => p.2.core == core)).length)
  if s.remote.any (fun o => o.2.core == core && o.2.word == e.id && o.2.cover == some (.batch e.batch)) then s
  else ps.foldl (fun s p => s.startRemote (e.remote core p)) s

/-- The array of a core works: no lasting fault takes it out of service (R274), and it is not under test (R416). -/
def State.arrayUp (s : State) (core : Nat) : Bool :=
  (s.core core).rowFaults.isEmpty && !(s.core core).arrayRetired && !s.tests.any (fun t => t.unit.core == core && t.unit.cls == 1)

/-- An MMAG without the groups it has not begun. -/
def MatEntry.cutShort (e : MatEntry) : MatEntry :=
  match e.op with
  | .mmag fw tile nt kc base pitches dead counts images next => { e with op := .mmag fw tile nt kc base pitches dead (counts.take next) images next }
  | .tld _ _ _ _ _ _ _ | .swap | .mma _ _ _ _ _ | .mmas _ _ _ _ _ _ _ | .aclr _ _ | .adrain _ _ _ _ _ | .ard _ _ _ _ _
  | .achk _ _ _ | .aflip _ _ _ _ => e

/-- An MMAG meets a fault: its batch has the fault, and the groups it has not begun are not applied; one that has begun none ends (R198, R207). -/
def State.mmagFail (s : State) (core : Nat) (e : MatEntry) (cause : Cause) (a : Addr) : State :=
  (s.modCore core (fun c => if e.begun then c.setEntry e.cutShort else c.dropEntry e.id)).matFault core e.ctx e.wave e.batch e.id cause a

/-- The target tiles of an MMAG and its format, compared as R208 says with the plane it finds before its first group; its target tiles are
those that receive rows (log entry 66). -/
def State.mmagUnfit (s : State) (core : Nat) (fw : Word) (tile : Nat) (counts : List Nat) (next : Nat) : Bool :=
  next == 0 && (fwBF fw != (s.core core).active.fmt.toNat || !(s.core core).tilesAgree fw (tilesFrom tile ((counts.sum + 31) / 32)))

/-- The image of an MMAG's next group with rows is read into the shadow plane, unless it stands there (R207, R284). -/
def State.mmagRead (s : State) (core : Nat) (e : MatEntry) : State × Taken :=
  match e.op, Map.find s.groups e.ctx with
  | .mmag fw tile _ _ _ _ _ counts images next, some g =>
    if s.voided e || s.mmagUnfit core fw tile counts next then (s, .blocked)
    else
      match nextGroup counts next with
      | none => (s, .blocked)
      | some i =>
        if e.ahead = some i then (s, .blocked)
        else
          match s.readPlane ⟨core, e.ctx, g, e.tag.toNat⟩ e.got (weightAsk fw (images[i]?.getD 0)) with
          | (s1, .stop (.wait t a)) => (s1.modCore core (fun c => c.setEntry { e with token := some t, va := a }), .waits t)
          | (s1, .stop (.peers ps)) => (s1.askPeers core e ps, .asks)
          | (s1, .stop (.fail cause a)) => (s1.mmagFail core e cause a, .done 0)
          | (s1, .plane p) =>
            (s1.modCore core (fun c => { c.setEntry { e with ahead := some i, got := [] } with shadow := p.over c.shadow }), .done 0)
  | _, _ => (s, .blocked)

/-- The next step of an MMAG at its place: its end, its fault, or a group whose image is ready, with its occupancy (R284). -/
def State.mmagStep (s : State) (core : Nat) (e : MatEntry) : State × Taken :=
  match e.op with
  | .mmag fw tile nt kc base pitches dead counts images next =>
    if s.voided e then (s.modCore core (fun c => c.dropEntry e.id), .done 0)
    else if s.mmagUnfit core fw tile counts next then (s.mmagFail core e .engineShape 0, .done 0)
    else
      match nextGroup counts next with
      | none => (s.modCore core (fun c => c.dropEntry e.id), .done 0)
      | some i =>
        if e.ahead ≠ some i then (s, .blocked)
        else
          let r := s.groupEffect core e fw tile kc base pitches dead counts i
          (r.1.modCore core (fun c => c.setEntry
            { e with op := .mmag fw tile nt kc base pitches dead counts images (i + 1), phase := .begun, occ := r.2, ahead := none }), .done r.2)
  | .tld _ _ _ _ _ _ _ | .swap | .mma _ _ _ _ _ | .mmas _ _ _ _ _ _ _ | .aclr _ _ | .adrain _ _ _ _ _ | .ard _ _ _ _ _
  | .achk _ _ _ | .aflip _ _ _ _ => (s, .blocked)

/-! ## TLD's read (R203, R276) -/

/-- The slot that waits for a TLD's read. -/
def Wave.awaitsTile (w : Wave) (e : MatEntry) : Bool := w.slots[e.slot].wait == some (.tile e.id)

/-- The slot that waits for a TLD's read, changed. -/
def State.tileSlot (s : State) (e : MatEntry) (f : Wave → Wave) : State :=
  s.modWave e.ctx e.wave (Wave.everySlot (fun w => if w.awaitsTile e then f w else w))

/-- A TLD that faults raises its cause at its word, precisely; in a wave that has stopped meanwhile it does so when the wave goes on (R203, R295,
R298, R360). -/
def State.tileFail (s : State) (core : Nat) (e : MatEntry) (cause : Cause) (a : Addr) : State :=
  let s1 := (s.modCore core (fun c => c.dropEntry e.id)).tileSlot e (fun w => w.setSlot e.slot (fun p => { p with wait := some (.gaveUp cause a) }))
  match (Map.find s.groups e.ctx).bind (fun g => g.waves[e.wave]?) with
  | none => s1
  | some w =>
    if w.halt.acts && w.awaitsTile e then
      s1.trapIn e.ctx e.wave e.slot { Trap.of cause (w.exec e.slot) with addr := a } w.slots[e.slot].pc w.slots[e.slot].pc none
    else s1

/-- An unread TLD's image is read into the shadow plane: its swap takes its place, or the word faults, or waits for the service or for
peers; a TLD that is to have no effect goes on. -/
def State.tileRead (s : State) (core : Nat) (e : MatEntry) : State :=
  match e.op, Map.find s.groups e.ctx with
  | .tld fw west nk nn a pitch scale, some g =>
    if s.voided e then (s.modCore core (fun c => c.dropEntry e.id)).passTile e
    else
      match s.readPlane ⟨core, e.ctx, g, e.tag.toNat⟩ e.got ⟨fw, west, nk, nn, a, pitch.toNat, scale⟩ with
      | (s1, .plane p) =>
        (s1.modCore core (fun c => { c.setEntry { e with op := .swap, got := [] } with shadow := p.over c.shadow })).tileSlot e (fun w => w.advance e.slot)
      | (s1, .stop (.peers ps)) => s1.askPeers core e ps
      | (s1, .stop (.wait t x)) => (s1.modCore core (fun c => c.dropEntry e.id)).tileSlot e (fun w => w.stallAt e.slot (.fetch t x))
      | (s1, .stop (.fail cause x)) => s1.tileFail core e cause x
  | _, _ => s

/-- The image of an entry cannot be read: a TLD raises the cause at its word, an MMAG has it in its batch (R203, R207, R360). -/
def State.imageFail (s : State) (core : Nat) (e : MatEntry) (cause : Cause) (a : Addr) : State :=
  match e.op with
  | .tld _ _ _ _ _ _ _ => s.tileFail core e cause a
  | .mmag _ _ _ _ _ _ _ _ _ _ => s.mmagFail core e cause a
  | .swap | .mma _ _ _ _ _ | .mmas _ _ _ _ _ _ _ | .aclr _ _ | .adrain _ _ _ _ _ | .ard _ _ _ _ _ | .achk _ _ _ | .aflip _ _ _ _ => s

/-! ## Drains (R210, R287) -/

/-- Elements of a drain's box. -/
def DrainBuf.total (b : DrainBuf) : Nat := drainTotal b.shape

/-- A remote operation of a drain. -/
def DrainBuf.remote (b : DrainBuf) (core window addr : Nat) (va : Addr) (op : FabricOp) : RemoteOp :=
  { ctx := b.ctx, core := core, wave := b.wave, slot := 0, thread := 0, pc := 0, word := b.rank, off := 0,
    cover := some (.batch b.batch), coll := none, serial := none, window := window, addr := BitVec.ofNat 40 addr, va := va,
    op := op, epoch := 0, firstSent := 0, lastSent := 0, sends := 0, interval := 50000, status := .queued, telem := noElem,
    gen := none }

/-- OVFL bits kept until the batch retires. -/
def Wave.drainFlag (w : Wave) (b : BitVec 16) (f : Word) : Wave :=
  if f = 0 then w else { w with drainFlags := Map.insert w.drainFlags b.toNat (Map.get w.drainFlags b.toNat 0 ||| f) }

/-- One element of a drain written; a clipped one is passed over. -/
def State.drainElem (s : State) (core : Nat) (b : DrainBuf) (g : Group) (j : Nat) : State × Option EngineStop :=
  let bx := shapeBox b.shape 0
  let fmt := shapeFmt b.shape
  let es := drainBytes fmt
  match (boxAt b.shape b.coords (j * es)).1 with
  | none => (s, none)
  | some a =>
    match s.spotsAt ⟨core, b.ctx, g, b.tag.toNat⟩ (if b.add then .engineAtomic else .engineWrite) (.mem a) es 8 with
    | (s1, .error x) => (s1, some x)
    | (s1, .ok ts) =>
      let (v, f) := convElem fmt b.tile.alpha (b.tile.el (j / bx) (j % bx)) (Map.get b.scales (j % bx) 0x3F800000)
      let s2 := s1.modWave b.ctx b.wave (fun w => w.drainFlag b.batch f)
      if b.add then
        match ts with
        | [(.peer w x, _)] => (s2.startRemote (b.remote core w x a (.red .fadd false (BitVec.ofNat 64 v))), none)
        | [(t, _)] => ((s2.exchange g.part t 4 (fun old => atomOp .fadd 32 old v)).1, none)
        | _ => (s2, some (.fail .misaligned a))
      else
        let bs := bytesOf es v
        ((ts.foldl (fun (acc : State × Nat) t =>
          let part := (bs.drop acc.2).take t.2
          (match t.1 with
           | .peer w x => acc.1.startRemote (b.remote core w x (a + BitVec.ofNat 64 acc.2)
               (.store t.2 (BitVec.ofNat 128 (leNat part)) (BitVec.ofNat 16 (2 ^ t.2 - 1)) false))
           | x => acc.1.engineStore core b.rank g.part x (part.map (fun y => (y, false))), acc.2 + t.2)) (s2, 0)).1, none)

/-- Lanes that an element of a drain sends to peers at its targets. -/
def drainLanes (ts : List (Target × Nat)) : Nat :=
  ts.countP (fun t => match t.1 with
    | .peer _ _ => true
    | .dev _ _ | .host _ | .mmio _ | .scratch _ _ | .share _ _ => false)

/-- The outstanding list or the context's serials have no room for an element of a drain (R256, R380, R384). -/
def State.drainFull (s : State) (core : Nat) (b : DrainBuf) (g : Group) (j : Nat) : Bool :=
  let es := drainBytes (shapeFmt b.shape)
  match (boxAt b.shape b.coords (j * es)).1 with
  | none => false
  | some a =>
    match (s.spotsAt ⟨core, b.ctx, g, b.tag.toNat⟩ (if b.add then .engineAtomic else .engineWrite) (.mem a) es 8).2 with
    | .error _ => false
    | .ok ts => s.remoteFull core b.ctx (drainLanes ts) (drainLanes ts)

/-- Elements of a drain from one on, for so many bytes; clipped ones are passed over and are no bytes (R287). -/
def State.drainElems (s : State) (core : Nat) (b : DrainBuf) (g : Group) : Nat → Nat → Nat → State × Nat × Option EngineStop
  | j, _, 0 => (s, j, none)
  | j, left, fuel + 1 =>
    if b.total ≤ j then (s, j, none)
    else if drainClips b.shape b.coords j then s.drainElems core b g (j + 1) left fuel
    else if left = 0 ∨ s.drainFull core b g j then (s, j, none)
    else
      match s.drainElem core b g j with
      | (s1, some x) => (s1, j, some x)
      | (s1, none) => s1.drainElems core b g (j + 1) (left - drainBytes (shapeFmt b.shape)) fuel

/-- Operations of a drain that its peers have not answered. -/
def State.drainOpen (s : State) (core : Nat) (b : DrainBuf) : Bool :=
  s.remote.any (fun o => o.2.core == core && o.2.word == b.rank && o.2.cover == some (.batch b.batch) && o.2.open_)

/-- A buffer emptied. -/
def Core.freeBuffer (c : Core) (i : Nat) : Core := { c with buffers := vmod c.buffers i (fun _ => none) }

/-- Bytes of a drain's destination already written: clipped elements are none (R287). -/
def DrainBuf.bytesDone (b : DrainBuf) : Nat :=
  (List.range b.done).countP (fun j => !drainClips b.shape b.coords j) * drainBytes (shapeFmt b.shape)

/-- A drain that stands inside a chunk has its reservation already. -/
def DrainBuf.midChunk (b : DrainBuf) : Bool := b.bytesDone % 4096 != 0

/-- One chunk of 4 KiB of a drain, or what is left of it. -/
def State.drainChunk (s : State) (core i : Nat) : State :=
  match vget (s.core core).buffers i none with
  | none => s
  | some b =>
    match Map.find s.groups b.ctx with
    | none => s.modCore core (fun c => c.freeBuffer i)
    | some g =>
      let put (s : State) (b : DrainBuf) : State := s.modCore core (fun c => { c with buffers := vmod c.buffers i (fun _ => some b) })
      match s.drainElems core { b with token := none } g b.done (4096 - b.bytesDone % 4096) (b.total + 1) with
      | (s1, j, some (.wait t a)) => put s1 { b with done := j, token := some t, va := a }
      | (s1, _, some (.fail cause a)) => (s1.modCore core (fun c => c.freeBuffer i)).matFault core b.ctx b.wave b.batch b.rank cause a
      | (s1, j, _) => put s1 { b with done := j, token := none }

/-- A drain whose writes are performed frees its buffer (R286). -/
def State.drainDone (s : State) (core i : Nat) : Bool :=
  match vget (s.core core).buffers i none with
  | none => false
  | some b => decide (b.total ≤ b.done) && b.token.isNone && !s.drainOpen core b

/-- A chunk of a drain, or the rest of one, under the drain's reservation; the reservation stands while no element of the chunk has been
written. -/
def State.drainTurn (s : State) (core i : Nat) (b : DrainBuf) : State :=
  let t := s.drainChunk core i
  let begun := match vget (t.core core).buffers i none with
    | none => true
    | some x => x.done != b.done
  if begun && !b.midChunk then t.useGrant .drain core b.rank else t

/-- The drain may go on: it waits for no record, has elements left, and begins no chunk while its group is being stopped (R336). -/
def State.drainMoves (s : State) (b : DrainBuf) : Bool :=
  b.token.isNone && decide (b.done < b.total) && (b.midChunk || !s.halts b.ctx)

/-- A drain carried out until it is done, waits or has no reservation, at most `fuel` chunks. -/
def State.drainAll (s : State) (core i : Nat) : Nat → State
  | 0 => s
  | fuel + 1 =>
    match vget (s.core core).buffers i none with
    | none => s
    | some b =>
      if s.drainDone core i then s.modCore core (fun c => c.freeBuffer i)
      else if !s.drainMoves b then s
      else
        let s1 := if b.midChunk then s else s.want .drain core b.rank 64
        if b.midChunk || s1.hasGrant .drain core b.rank then (s1.drainTurn core i b).drainAll core i fuel else s1

/-! ## Batches (R198, R212) -/

/-- The next batch of a wave has taken its full effect. -/
def State.mayRetire (s : State) (ctx : Nat) (g : Group) (wv : Nat) (w : Wave) : Bool :=
  let b := w.retired + 1
  let c := s.core g.core
  w.retired != w.batch && c.queue.all (fun e => !(e.ctx == ctx && e.wave == wv && e.batch == b)) &&
  c.buffers.toList.all (fun x => x.all (fun d => !(d.ctx == ctx && d.wave == wv && d.batch == b))) &&
  s.remote.all (fun o => !(o.2.ctx == ctx && o.2.wave == wv && o.2.cover == some (.batch b) && o.2.open_))

/-- A batch retires: its drains' OVFL bits are set. -/
def State.retireBatch (s : State) (ctx wv : Nat) : State :=
  s.modGroup ctx (fun g =>
    match g.waves[wv]? with
    | none => g
    | some w =>
      let b := w.retired + 1
      (g.setWave wv { w with retired := b, drainFlags := Map.erase w.drainFlags b.toNat }).raise (Map.get w.drainFlags b.toNat 0))

/-- Every batch of a wave that may retire does, at most `fuel` of them. -/
def State.retireAll (s : State) (ctx wv : Nat) : Nat → State
  | 0 => s
  | fuel + 1 =>
    match Map.find s.groups ctx with
    | none => s
    | some g =>
      match g.waves[wv]? with
      | none => s
      | some w => if s.mayRetire ctx g wv w then (s.retireBatch ctx wv).retireAll ctx wv fuel else s

/-- Closed batches of a wave that have not retired. -/
def Wave.openBatches (w : Wave) : Nat := (w.batch - w.retired).toNat

/-- Every wave's batches on a core, where nothing stays queued. -/
def State.settleBatches (s : State) (core : Nat) : State :=
  if s.deferred then s
  else
    (s.groups.filter (fun g => g.2.core == core)).foldl (fun s g =>
      g.2.waves.zipIdx.foldl (fun s (w, i) => s.retireAll g.1 i w.openBatches) s) s

/-! ## Matrix order carried out at once -/

/-- What an instruction's step at its place would leave, once its reservation is granted: none for no occupancy (R252, R288). -/
def State.underGrant (s : State) (core id : Nat) (t : State) (occ : Nat) : State × Bool :=
  if occ = 0 then (t, true)
  else
    let s1 := s.want .matrix core id (2 * occ)
    if s1.hasGrant .matrix core id then ({ t with clusters := s1.clusters }.useGrant .matrix core id, true) else (s1, false)

/-- The instruction at the head of matrix order, to its end; `false`: it waits. -/
def State.runHead (s : State) (core : Nat) : State × Bool :=
  match (s.core core).queue with
  | [] => (s, false)
  | e :: _ =>
    if e.token.isSome || !s.arrayUp core || !s.coreUp core || s.halts e.ctx then (s, false)
    else
      match e.op with
      | .tld _ _ _ _ _ _ _ => (s.tileRead core e, (((s.tileRead core e).core core).queue != (s.core core).queue))
      | .mmag _ _ _ _ _ _ _ _ _ _ =>
        match s.mmagStep core e with
        | (s1, .done occ) => s.underGrant core e.id s1 occ
        | _ =>
          match s.mmagRead core e with
          | (s1, .done _) => (s1, true)
          | (s1, .blocked) => (s1, false)
          | (s1, .waits _) => (s1, false)
          | (s1, .asks) => (s1, false)
      | .swap | .mma _ _ _ _ _ | .mmas _ _ _ _ _ _ _ | .aclr _ _ | .adrain _ _ _ _ _ | .ard _ _ _ _ _ | .achk _ _ _ | .aflip _ _ _ _ =>
        if e.phase ≠ .queued then (s.modCore core (fun c => c.dropEntry e.id), true)
        else
          match s.takeEffect core e with
          | (s1, .done occ) => s.underGrant core e.id (s1.modCore core (fun c => c.dropEntry e.id)) occ
          | (s1, .blocked) => (s1, false)
          | (s1, .waits _) => (s1, false)
          | (s1, .asks) => (s1, false)

/-- Both drain buffers worked. -/
def State.drainBoth (s : State) (core : Nat) : State := (s.drainAll core 0 64).drainAll core 1 64

/-- Matrix order carried out as far as it goes, at most `fuel` steps. -/
def State.runQueue (s : State) (core : Nat) : Nat → State
  | 0 => s
  | fuel + 1 =>
    match s.runHead core with
    | (s1, true) => (s1.drainBoth core).runQueue core fuel
    | (s1, false) => s1

/-- Steps of matrix order left. -/
def Core.queueFuel (c : Core) : Nat := (c.queue.map (fun e => match e.op with
  | .mmag _ _ _ _ _ _ _ counts _ _ => 2 * counts.length + 2
  | .tld _ _ _ _ _ _ _ | .swap | .mma _ _ _ _ _ | .mmas _ _ _ _ _ _ _ | .aclr _ _ | .adrain _ _ _ _ _ | .ard _ _ _ _ _
  | .achk _ _ _ | .aflip _ _ _ _ => 2)).sum

/-- Matrix order, drains and batches of a core carried out where nothing stays queued. -/
def State.runMatrix (s : State) (core : Nat) : State :=
  if s.deferred then s
  else
    let s1 := s.drainBoth core
    (s1.runQueue core (s1.core core).queueFuel).settleBatches core

end Sys2Proof.Machine
end

