-- ==== Sys2Proof/Machine/Matrix.lean ====
section
/-! DEFINITION. The collective matrix instructions, MFENCE and MWAIT, and the events of the array and its drains
(R195–R215, R276, R281–R288). -/

namespace Sys2Proof.Machine

/-! ## The checks that come first (R195) -/

/-- The threads a stage-2 fault names: the covered ones, or EXEC where the guard covers none. -/
def Here.named (h : Here) (cov : Mask) : Mask := if cov = 0 then h.w.exec h.k else cov

/-- The threads that a wave of its decode mode has; those of a Z5 wave beyond them are parked (R410). -/
def Wave.threads (w : Wave) : Mask := if w.z5 then Mask.below 16 else ~~~0

/-- Step 1 fails: a thread is missing, the other slot is live, or the guard splits the live threads; parked threads count as neither (R410). -/
def Here.scattered (h : Here) (g : Guard) : Bool :=
  h.w.exited &&& h.w.threads != 0 || h.w.otherLive h.k || h.w.slots[h.k].hold != 0 || h.w.exec h.k != ~~~h.w.dead &&& h.w.threads || h.split g

/-- A collective matrix instruction (R195): ownership, convergence, vote, legality, its own checks, then its effect. -/
def State.collective (s : State) (g : Guard) (vc : Reg) (mmag : Bool) {α : Type} (check : Here → Mask → Word → Except Trap α)
    (run : Here → Mask → Word → α → State) : Host.Outcome State Fault Refusal :=
  s.act (fun h =>
    let cov := h.cov g
    let all := h.w.exec h.k
    if (s.core h.g.core).owner ≠ some h.ctx then s.takeTrap h (Trap.of .engineShape (h.named cov))
    else if h.scattered g then s.takeTrap h h.structure
    else if cov = 0 then s.goesOn h
    else
      let no := dissent all (h.w.read vc.toNat)
      let fw := h.w.read vc.toNat (Mask.lowest all)
      if no ≠ 0 then s.takeTrap h (Trap.named h.w .formatDivergence no vc.toNat 0)
      else if fwIllegal fw mmag then s.takeTrap h (Trap.named h.w .formatIllegal all vc.toNat 0)
      else
        match check h all fw with
        | .error t => s.takeTrap h t
        | .ok x => run h all fw x)

/-- An entry joins matrix order at the end (R197, R198). -/
def State.enqueue (s : State) (h : Here) (op : MatOp) : State :=
  s.takeId.modCore h.g.core (fun c => { c with queue := c.queue ++
    [⟨s.nextId, h.ctx, h.wv, h.k, op, h.w.batch + 1, .queued, 0, none, 0, h.w.tag, [], none⟩] })

/-- A word that enters matrix order and goes on. -/
def State.inOrder (s : State) (h : Here) (op : MatOp) : State := ((s.goesOn h).enqueue h op).runMatrix h.g.core

/-- A word that waits for its place in matrix order. -/
def State.waitsOrder (s : State) (h : Here) (op : MatOp) : State :=
  ((s.putWave h (h.w.stallAt h.k (.matrix s.nextId))).enqueue h op).runMatrix h.g.core

/-! ## TLD (R202, R203) -/

/-- A TLD or MMAG still needs the shadow plane. -/
def MatOp.usesShadow : MatOp → Bool
  | .tld _ _ _ _ _ _ _ | .swap | .mmag _ _ _ _ _ _ _ _ _ _ => true
  | .mma _ _ _ _ _ | .mmas _ _ _ _ _ _ _ | .aclr _ _ | .adrain _ _ _ _ _ | .ard _ _ _ _ _ | .achk _ _ _ | .aflip _ _ _ _ => false

/-- The lowest operand address that breaks TLD's alignment (R202). -/
def tldOdd (a : Addr) (p : Word) (scale : Addr) : Option Addr :=
  lowestAddr ((if a.toNat % 2 = 1 then [a] else []) ++ (if p.toNat % 2 = 1 then [a + p.setWidth 64] else []) ++
    (if scale.toNat % 4 ≠ 0 then [scale] else []))

/-- TLD (R202, R203): the image is read at once where nothing stays queued. -/
def execTld (g : Guard) (vd va vb vc : Reg) (nn : BitVec 4) (nk : BitVec 5) (west : Bool) (s : State) : Host.Outcome State Fault Refusal :=
  s.collective g vc false
    (fun h all fw => do
      let a ← h.w.agree64 all va.toNat
      let p ← h.w.agree all vb.toNat
      let sc ← h.w.agree64 all vd.toNat
      if 16 ≤ nk.toNat ∧ fwBF fw ≠ 1 then .error (Trap.of .engineShape all)
      else
        match (if fwBF fw = 1 then tldOdd a p sc else none) with
        | some x => .error { Trap.of .misaligned all with addr := x }
        | none => .ok (a, p, sc))
    (fun h _ fw x =>
      if (s.core h.g.core).queue.any (fun e => e.op.usesShadow) || !s.slotQuiet h then s.putWave h (h.w.stallAt h.k .stall)
      else
        let id := s.nextId
        let s1 := (s.putWave h (h.w.stallAt h.k (.tile id))).enqueue h
          (.tld fw west (16 * (nk.toNat + 1)) (16 * (nn.toNat + 1)) x.1 x.2.1 x.2.2)
        if s.deferred then s1
        else
          match (s1.core h.g.core).queue.find? (fun e => e.id == id) with
          | none => s1
          | some e => if s1.arrayUp h.g.core then (s1.tileRead h.g.core e).runMatrix h.g.core else s1)

/-! ## MMA, MMAS, MMAG (R204–R207) -/

/-- The bytes of eight registers of a thread, and its header; a dead thread's are zero (R196). -/
def Wave.mmaRow (w : Wave) (va vd : Nat) (m : Lane) : List Byte × Word :=
  if Mask.has w.dead m then (List.replicate 32 0, 0)
  else ((List.range 8).flatMap (fun i => bytesOf 4 (w.read (va + i) m).toNat), w.read vd m)

/-- MMA (R204). -/
def execMma (g : Guard) (vd va vb vc : Reg) (tile : BitVec 2) (s : State) : Host.Outcome State Fault Refusal :=
  s.collective g vc false
    (fun h all fw => do
      let k0 ← h.w.agree all vb.toNat
      if k0.toNat % 32 ≠ 0 ∨ (if fwBF fw = 1 then 480 else 224) < k0.toNat then .error (Trap.named h.w .engineShape all vb.toNat 0)
      else .ok k0.toNat)
    (fun h _ fw k0 => s.inOrder h (.mma fw tile.toNat k0 ((List.finRange 32).map (h.w.mmaRow va.toNat vd.toNat)) h.w.dead))

/-- KC passes the logical rows of a tile (R205). -/
def kcBad (fw : Word) (kc : BitVec 5) : Bool := decide ((if fwBF fw = 1 then 16 else 8) ≤ kc.toNat)

/-- The first scratch address that a streamed row may not read. -/
def State.rowsDenied (s : State) (h : Here) (fw base pitches : Word) (n : Nat) (rows : List (Nat × Nat)) : Option Word :=
  let len := rowBytes (fwAF fw) n
  (rows.find? (fun r => s.scratchDenied h (rowAddr base pitches r.1 r.2) len)).map (fun r =>
    let a := rowAddr base pitches r.1 r.2
    a + BitVec.ofNat 32 (((List.range len).find? (fun i => s.scratchDenied h (a + BitVec.ofNat 32 i) 1)).getD 0))

/-- The alignment of streamed rows (R205); where the row pitch alone is odd, TADDR is the base (log entry 66). -/
def streamAligned (w : Wave) (all : Mask) (va vb : Nat) (base pitches : Word) : Except Trap Unit :=
  if base.toNat % 4 ≠ 0 then .error (Trap.named w .misaligned all va (base.setWidth 64))
  else if rowPitch pitches % 4 ≠ 0 then .error (Trap.named w .misaligned all vb (base.setWidth 64))
  else .ok ()

/-- The alignment and range of streamed rows (R205). -/
def State.streamChecks (s : State) (h : Here) (all : Mask) (va vb : Nat) (fw base pitches : Word) (n : Nat) (rows : List (Nat × Nat)) : Except Trap Unit :=
  match streamAligned h.w all va vb base pitches with
  | .error t => .error t
  | .ok _ =>
    match s.rowsDenied h fw base pitches n rows with
    | some a => .error (Trap.named h.w .permission all va (a.setWidth 64))
    | none => .ok ()

/-- Tile and row of each of the first `n` streamed rows; those of parked threads are not read (R410). -/
def Here.firstRows (h : Here) (n : Nat) : List (Nat × Nat) :=
  ((List.range n).map (fun r => (r / 32, r % 32))).filter (fun r => decide (r.2 < h.g.image.lanes))

/-- MMAS (R205). -/
def execMmas (g : Guard) (va vb vc : Reg) (kc : BitVec 5) (nt tile : BitVec 2) (s : State) : Host.Outcome State Fault Refusal :=
  s.collective g vc false
    (fun h all fw => do
      let base ← h.w.agree all va.toNat
      let pitches ← h.w.agree all vb.toNat
      if kcBad fw kc then .error (Trap.of .engineShape all)
      else do
        s.streamChecks h all va.toNat vb.toNat fw base pitches (kRange kc.toNat) (h.firstRows (32 * (nt.toNat + 1)))
        .ok (base, pitches))
    (fun h _ fw x =>
      if !s.slotQuiet h then s.putWave h (h.w.stallAt h.k .stall)
      else s.inOrder h (.mmas fw tile.toNat nt.toNat kc.toNat x.1 x.2 h.w.dead))

/-- The bytes of a group descriptor (R206). -/
def State.descriptor (s : State) (h : Here) (a : Word) : Option (List Byte) :=
  (s.scratchAt h.ctx h.g a 152).map (fun t => (s.readAt h.g.part t 152).2.1)

/-- Counts and images of a descriptor. -/
def descGroups (bs : List Byte) : List Nat × List Addr :=
  let n := leNat (bs.take 4)
  (((bs.drop 4).take n).map BitVec.toNat, (List.range n).map (fun i => BitVec.ofNat 64 (leNat ((bs.drop (24 + 8 * i)).take 8))))

/-- A descriptor that MMAG refuses (R206). -/
def descBad (bs : List Byte) (nt : BitVec 2) : Bool :=
  let n := leNat (bs.take 4)
  n == 0 || decide (16 < n) || decide (32 * (nt.toNat + 1) < (descGroups bs).1.sum) || ((bs.drop 20).take 4).any (fun b => b != 0)

/-- What MMAG finds of its descriptor and its rows (R206): the values of the descriptor first, then the range of the rows (R291). What cause and
TADDR an image address that is no multiple of 16 gives, and the TADDR of a descriptor that may not be read, are the model's choice (log
entry 66). -/
def State.mmagPlan (s : State) (h : Here) (all : Mask) (vd va vb : Reg) (kc : BitVec 5) (nt : BitVec 2) (fw d base pitches : Word) :
    Except Trap (List Nat × List Addr) :=
  match s.descriptor h d with
  | none => do
    streamAligned h.w all va.toNat vb.toNat base pitches
    .error (Trap.named h.w .permission all vd.toNat (d.setWidth 64))
  | some bs =>
    if descBad bs nt then .error (Trap.of .engineShape all)
    else
      match (descGroups bs).2.find? (fun a => decide (a.toNat % 16 ≠ 0)) with
      | some a => .error { Trap.of .misaligned all with addr := a }
      | none => do
        s.streamChecks h all va.toNat vb.toNat fw base pitches (kRange kc.toNat) (h.firstRows (descGroups bs).1.sum)
        .ok (descGroups bs)

/-- MMAG (R206, R207): its operands, then the wait for the slot's earlier accesses, which may have written the descriptor, then the
descriptor as it is read at issue. -/
def execMmag (g : Guard) (vd va vb vc : Reg) (kc : BitVec 5) (nt tile : BitVec 2) (s : State) : Host.Outcome State Fault Refusal :=
  s.collective g vc true
    (fun h all fw => do
      let d ← h.w.agree all vd.toNat
      let base ← h.w.agree all va.toNat
      let pitches ← h.w.agree all vb.toNat
      if 1 < fwBF fw ∨ kcBad fw kc then .error (Trap.of .engineShape all)
      else if d.toNat % 8 ≠ 0 then .error (Trap.named h.w .misaligned all vd.toNat (d.setWidth 64))
      else .ok (d, base, pitches))
    (fun h all fw x =>
      if !s.slotQuiet h then s.putWave h (h.w.stallAt h.k .stall)
      else
        match s.mmagPlan h all vd va vb kc nt fw x.1 x.2.1 x.2.2 with
        | .error t => s.takeTrap h t
        | .ok y => s.draw.inOrder h (.mmag fw tile.toNat nt.toNat kc.toNat x.2.1 x.2.2 h.w.dead y.1 y.2 0))

/-! ## Tiles (R209–R211, R214, R215) -/

/-- ACLR (R209). -/
def execAclr (g : Guard) (vc : Reg) (tile : BitVec 2) (s : State) : Host.Outcome State Fault Refusal :=
  s.collective g vc false (fun _ _ _ => .ok ()) (fun h _ fw _ => s.inOrder h (.aclr fw tile.toNat))

/-- A shape record that ADRAIN refuses (R210). -/
def drainBad (r : BitVec 512) (add : Bool) : Bool :=
  !([0, 1, 2, 4, 5, 6].contains (shapeFmt r)) || shapeDims r == 1 || decide (32 < shapeBox r 1) || (add && shapeFmt r != 4)

/-- ADRAIN (R210). -/
def execAdrain (g : Guard) (va : Reg) (q : BitVec 4) (vc : Reg) (add : Bool) (tile : BitVec 2) (s : State) : Host.Outcome State Fault Refusal :=
  s.collective g vc false
    (fun h all _ => do
      let org ← h.w.agreeRow all (quadRegs va)
      if drainBad (h.g.shape q) add then .error (Trap.of .engineShape all) else .ok (org.map BitVec.toInt))
    (fun h _ fw org => s.inOrder h (.adrain fw tile.toNat org (h.g.shape q) add))

/-- ARD (R211). -/
def execArd (g : Guard) (vd va vc : Reg) (raw : Bool) (tile : BitVec 2) (s : State) : Host.Outcome State Fault Refusal :=
  s.collective g vc false
    (fun h all _ => do
      let n ← h.w.agree all va.toNat
      if (if raw then 255 else 248) < n.toNat ∨ (!raw ∧ n.toNat % 8 ≠ 0) then .error (Trap.named h.w .engineShape all va.toNat 0)
      else .ok n.toNat)
    (fun h _ fw n => s.waitsOrder h (.ard fw tile.toNat raw n vd))

/-- ACHK (R214). -/
def execAchk (g : Guard) (vd vc : Reg) (tile : BitVec 2) (s : State) : Host.Outcome State Fault Refusal :=
  s.collective g vc false (fun _ _ _ => .ok ()) (fun h _ fw _ => s.waitsOrder h (.achk fw tile.toNat vd))

/-- AFLIP (R215): test mode; nothing without a covered thread; then ownership (R195). -/
def execAflip (g : Guard) (va : Reg) (tile : BitVec 2) (s : State) : Host.Outcome State Fault Refusal :=
  s.act (fun h =>
    let cov := h.cov g
    if !h.g.test then s.takeTrap h (Trap.of .privilege (h.w.exec h.k))
    else if cov = 0 then s.goesOn h
    else if (s.core h.g.core).owner ≠ some h.ctx then s.takeTrap h (Trap.of .engineShape cov)
    else
      match h.w.agree cov va.toNat with
      | .error t => s.takeTrap h t
      | .ok e =>
        if 98 < bits e.toNat 19 13 ∨ bits e.toNat 31 20 ≠ 0 then s.takeTrap h (Trap.named h.w .engineShape cov va.toNat 0)
        else s.inOrder h (.aflip tile.toNat (bits e.toNat 4 0) (bits e.toNat 12 5) (bits e.toNat 19 13)))

/-! ## MFENCE and MWAIT (R212, R213) -/

/-- MFENCE (R212), whatever EXEC and the guard hold. -/
def execMfence (g : Guard) (vd : Reg) (s : State) : Host.Outcome State Fault Refusal :=
  s.act (fun h =>
    let b := h.w.batch + 1
    if 2 ^ 15 - 1 ≤ h.w.openBatches then s.putWave h (h.w.stallAt h.k .stall)
    else
      (s.putWave h ({ h.w.writeLanes (h.cov g) vd.toNat .none (fun _ => b.setWidth 32) with batch := b }.advance h.k)).settleBatches h.g.core)

/-- Batch b comes at or before n. -/
def batchBy (n b : BitVec 16) : Bool := decide ((n - b).toNat < 2 ^ 15)

/-- MWAIT up to a batch: a closed batch up to it has not retired, or its first fault, or it goes on (R213, R299). -/
def State.mwait (s : State) (h : Here) (n : BitVec 16) : State :=
  if h.w.openBatches ≠ 0 ∧ batchBy n (h.w.retired + 1) then s.putWave h (h.w.stallAt h.k .stall)
  else
    match h.w.firstFault (fun f => match f.cover with
      | .batch b => batchBy n b && batchBy h.w.retired b
      | .channel _ => false
      | .coll _ => false
      | .launch _ => false) with
    | some f => s.deliverFault h f
    | none => s.goesOn h

/-- MWAIT (R213). -/
def execMwait (g : Guard) (va : Reg) (s : State) : Host.Outcome State Fault Refusal :=
  s.act (fun h =>
    let cov := h.cov g
    if cov = 0 then s.goesOn h
    else
      match h.w.agree cov va.toNat with
      | .error t => s.takeTrap h t
      | .ok v =>
        let n : BitVec 16 := v.setWidth 16
        if 1 ≤ (n - h.w.batch).toNat ∧ (n - h.w.batch).toNat < 2 ^ 15 then s.takeTrap h (Trap.named h.w .engineShape cov va.toNat 0)
        else s.mwait h n)

/-- MWAIT.all (R213), whatever EXEC and the guard hold. -/
def execMwaitAll (_g : Guard) (s : State) : Host.Outcome State Fault Refusal := s.act (fun h => s.mwait h h.w.batch)

/-! ## The events of the array (R276, R281, R284, R288) -/

/-- A product, whose occupancy the array holds. -/
def MatOp.product : MatOp → Bool
  | .mma _ _ _ _ _ | .mmas _ _ _ _ _ _ _ | .mmag _ _ _ _ _ _ _ _ _ _ => true
  | .tld _ _ _ _ _ _ _ | .swap | .aclr _ _ | .adrain _ _ _ _ _ | .ard _ _ _ _ _ | .achk _ _ _ | .aflip _ _ _ _ => false

/-- The first entry not begun, if its predecessors let it begin: products overlap, the rest waits for completion. -/
def Core.nextEntry (c : Core) : Option MatEntry :=
  match c.queue.find? (fun e => e.phase == .queued) with
  | none => none
  | some e =>
    let before := c.queue.takeWhile (fun x => x.id != e.id)
    if before.all (fun x => e.op.product && x.op.product && x.phase == .occupied) && e.token.isNone then some e else none

/-- The reservation of a product is used, or posted where it does not wait already (R252, R288). -/
def State.reserved (s : State) (core id occ : Nat) (f : State → State) : State :=
  if occ = 0 then f s
  else if s.hasGrant .matrix core id then f (s.useGrant .matrix core id)
  else if s.hasAsked .matrix core id then s
  else s.ask .matrix core id (2 * occ)

/-- The occupancy of an outcome. -/
def Taken.occ : Taken → Nat
  | .done n => n
  | .blocked => 0
  | .waits _ => 0
  | .asks => 0

/-- The entry of matrix order that may begin: none while the core's array is out of service, or it or its cluster is under test (R274,
R416, R419), and none of a group that is being stopped (R336). -/
def State.nextEntry (s : State) (core : Nat) : Option MatEntry :=
  if s.coreUp core && s.arrayUp core then ((s.core core).nextEntry).filter (fun e => !s.halts e.ctx) else none

/-- The drain buffer of a rank. -/
def Core.drainOf (c : Core) (rank : Nat) : Option (Nat × DrainBuf) :=
  (List.range 2).findSome? (fun i => (vget c.buffers i none).bind (fun b => if b.rank = rank then some (i, b) else none))

/-- A drain with bytes left to write asks for its next chunk (R287). -/
def State.askDrain (s : State) (core rank : Nat) : State :=
  if ((s.core core).drainOf rank).any (fun x => x.2.token.isNone && decide (x.2.done < x.2.total) && !x.2.midChunk) then s.want .drain core rank 64
  else s

/-- MATRIX_ORDER_BEGIN (R281). -/
def execMatrixOrderBegin (core : Nat) (s : State) : Host.Outcome State Fault Refusal :=
  match s.nextEntry core with
  | none => .next s
  | some e =>
    match s.takeEffect core e with
    | (_, .blocked) => .next s
    | (_, .waits _) => .next s
    | (_, .asks) => .next s
    | (_, .done occ) =>
      (s.reserved core e.id occ (fun s =>
        ((s.takeEffect core e).1.modCore core (fun c =>
          c.setEntry { e with phase := if occ = 0 then .occupied else .begun, occ := occ })).askDrain core e.id)).outcome

/-- The image that an instruction reads into the shadow plane may be read now: a TLD's at once, that of an MMAG's first group at its place,
that of a later one from the swap before it on (R276, R284). -/
def State.readsImage (s : State) (core : Nat) (e : MatEntry) : Bool :=
  match e.op with
  | .mmag _ _ _ _ _ _ _ _ _ next => decide (0 < next) || (s.nextEntry core).any (fun x => x.id == e.id)
  | _ => true

/-- SHADOW_READY (R276, R284): the image that is being read stands in the shadow plane. -/
def execShadowReady (core : Nat) (s : State) : Host.Outcome State Fault Refusal :=
  match (s.core core).queue.find? (fun e => e.op.usesShadow) with
  | none => .next s
  | some e =>
    s.event (s.coreUp core && e.token.isNone && s.arrayUp core && !s.halts e.ctx && s.readsImage core e)
      (match e.op with
       | .mmag _ _ _ _ _ _ _ _ _ _ => (s.mmagRead core e).1
       | _ => s.tileRead core e)

/-- MMAG_GROUP_START (R284). -/
def execMmagGroupStart (core : Nat) (s : State) : Host.Outcome State Fault Refusal :=
  match s.nextEntry core with
  | none => .next s
  | some e =>
    match e.op with
    | .mmag _ _ _ _ _ _ _ _ _ _ => (s.reserved core e.id (s.mmagStep core e).2.occ (fun s => (s.mmagStep core e).1)).outcome
    | _ => .next s

/-- OCCUPANCY_END (R281): an MMAG with groups left waits for its next one. -/
def execOccupancyEnd (core : Nat) (s : State) : Host.Outcome State Fault Refusal :=
  match (s.core core).queue.find? (fun e => e.phase == .begun) with
  | none => .next s
  | some e =>
    let more := match e.op with
      | .mmag _ _ _ _ _ _ _ counts _ next => (nextGroup counts next).isSome
      | _ => false
    .next (s.modCore core (fun c => c.setEntry { e with phase := if more then .queued else .occupied, occ := 0 }))

/-- MATRIX_COMPLETE (R281). -/
def execMatrixComplete (core : Nat) (s : State) : Host.Outcome State Fault Refusal :=
  match (s.core core).queue with
  | [] => .next s
  | e :: _ => s.event (e.phase == .occupied) ((s.modCore core (fun c => c.dropEntry e.id)).settleBatches core)

/-- DRAIN_BUFFER_FREE (R286). -/
def execDrainBufferFree (core buf : Nat) (s : State) : Host.Outcome State Fault Refusal :=
  s.event (s.drainDone core buf) (s.modCore core (fun c => c.freeBuffer buf))

/-- BATCH_RETIRE (R198). -/
def execBatchRetire (ctx wave : Nat) (s : State) : Host.Outcome State Fault Refusal :=
  match Map.find s.groups ctx with
  | none => .next s
  | some g =>
    match g.waves[wave]? with
    | none => .next s
    | some w => s.event (s.mayRetire ctx g wave w) (s.retireBatch ctx wave)

/-- COPY_CHUNK (R184, R252, R287, R307): of a command, or of a drain under its place in matrix order, which asks for its reservation where it has
none. -/
def execCopyChunk (core cmd : Nat) (s : State) : Host.Outcome State Fault Refusal :=
  match (s.core core).copies.find? (fun x => x.id == cmd), (s.core core).drainOf cmd with
  | some c, _ =>
    s.event (s.coreUp core && s.leads core c && s.aged core c.issued && s.copyMoves core c)
      (if c.midChunk || s.hasGrant .copy core cmd then (s.copyTurn core c).askCopy core cmd else s.want .copy core cmd 64)
  | none, some (i, b) =>
    s.event (s.coreUp core && s.aged core b.since && s.drainMoves b)
      (if b.midChunk || s.hasGrant .drain core cmd then (s.drainTurn core i b).askDrain core cmd else s.want .drain core cmd 64)
  | none, none => .next s

/-! ## The engines of a victim (R301, R336, R337, R388) -/

/-- Nothing of a context's words is under way but words that have given up, or whose lanes have all failed (R336, R388). -/
def State.wordsDone (s : State) (core ctx : Nat) : Bool :=
  (s.core core).reqs.all (fun e => e.2.ctx != ctx || e.2.gaveUp.isSome || s.remote.any (fun o => o.2.core == core && o.2.word == e.1 && o.2.cover.isNone)) &&
  s.remote.all (fun o => o.2.ctx != ctx || !o.2.open_)

/-- An engine class of a group stands at its stopping unit (R301, R336, R337); its save slot can be written. -/
def State.mayAck (s : State) (ctx : Nat) (g : Group) (cls : EngineClass) : Bool :=
  let c := s.core g.core
  s.slotMapped g ((s.gangOf g).bind (fun x => x.region g ctx)) &&
  match cls with
  | .waves =>
    !g.waves.any (fun w => w.halt.isStopping || w.halt.isTrapped || w.slots.any PathSlot.midWord || w.block.any (fun b => b.slots.any PathSlot.midWord)) &&
    s.wordsDone g.core ctx
  | .matrix => c.queue.all (fun e => e.ctx != ctx || e.phase == .queued)
  | .copy => c.copies.all (fun x => x.ctx != ctx || !x.midChunk || x.token.isSome || decide (x.kind.total ≤ x.done))
  | .braid => s.colls.all (fun x => x.2.ctx != ctx || !x.2.midSegment || x.2.token.isSome)
  | .bins | .barriers => true

/-- ENGINE_STOP_ACK (R337): TLDs with their read incomplete are abandoned with the waves (R336). -/
def execEngineStopAck (ctx : Nat) (cls : EngineClass) (s : State) : Host.Outcome State Fault Refusal :=
  match Map.find s.groups ctx with
  | none => .next s
  | some g =>
    s.event (g.stop.any (fun x => !x.waiting && !x.acked.contains cls) && s.mayAck ctx g cls && s.coreUp g.core)
      ((s.modGroup ctx (fun g => { g with stop := g.stop.map (fun x => { x with acked := cls :: x.acked }) })).writeGang g.gang)

end Sys2Proof.Machine
end

