-- ==== Sys2Proof/Machine/Pair.lean ====
section
/-! DEFINITION. Pair words: two slots that read before either writes (R83–R86, R128). -/

namespace Sys2Proof.Machine

/-- The operation of a slot on its first operand (the destination) and its second (R84, R128). -/
def pairFn (op : PairOp) (c : Word) (a b : Word) : Outs :=
  match op with
  | .mov => ⟨[b], false, false⟩
  | .iadd => ⟨[iadd32 false false a b], false, false⟩
  | .isub => ⟨[isub32 false false a b], false, false⟩
  | .imul => ⟨[imul32 false false a b], false, false⟩
  | .iminS => ⟨[imin32 false a b], false, false⟩
  | .imaxS => ⟨[imax32 false a b], false, false⟩
  | .iminU => ⟨[imin32 true a b], false, false⟩
  | .imaxU => ⟨[imax32 true a b], false, false⟩
  | .and => ⟨[a &&& b], false, false⟩
  | .or => ⟨[a ||| b], false, false⟩
  | .xor => ⟨[a ^^^ b], false, false⟩
  | .shl => ⟨[shl32 false a b], false, false⟩
  | .shr => ⟨[shr32 false a b], false, false⟩
  | .sar => ⟨[sar32 false a b], false, false⟩
  | .popc => ⟨[popc32 b], false, false⟩
  | .clz => ⟨[clz32 b], false, false⟩
  | .fadd => fadd32 .rne c a b
  | .fsub => fsub32 .rne c a b
  | .fmul => fmul32 .rne c a b
  | .fmin => fminmax32 false c a b
  | .fmax => fminmax32 true c a b
  | .pkaddBf => pkadd32 false .rne a b
  | .pkmulBf => pkmul32 false .rne a b

/-- MOV, POPC and CLZ do not read the destination (R83). -/
def pairUnary : PairOp → Bool
  | .mov | .popc | .clz => true
  | .iadd | .isub | .imul | .iminS | .imaxS | .iminU | .imaxU | .and | .or | .xor | .shl | .shr | .sar | .fadd | .fsub
  | .fmul | .fmin | .fmax | .pkaddBf | .pkmulBf => false

/-- The tag rule of a slot: that of its full word (R244). -/
def pairRule : PairOp → List Tag → Tag
  | .mov => tagMov
  | .iadd | .isub => tagAdd false
  | .imul | .shl => tagScale false
  | .pkaddBf | .pkmulBf => tagNone
  | .iminS | .imaxS | .iminU | .imaxU | .and | .or | .xor | .shr | .sar | .popc | .clz | .fadd | .fsub | .fmul | .fmin
  | .fmax => tagUniform

/-- A slot as an operation. -/
def slotOp (c : Word) (op : PairOp) (a : PairArgs) : AluOp :=
  let first : List Nat := if pairUnary op then [] else [a.vd.toNat]
  match a.src with
  | .reg vs => ⟨[a.vd.toNat], first ++ [vs.toNat], true, pairRule op, fun _ xs =>
      if pairUnary op then pairFn op c 0 (arg xs 0) else pairFn op c (arg xs 0) (arg xs 1)⟩
  | .imm i => ⟨[a.vd.toNat], first, true, fun ts => pairRule op (ts ++ [.uniform]), fun _ xs => pairFn op c (arg xs 0) (i.signExtend 32)⟩

/-- The wave after both slots: each slot's writes are formed from the wave before the word (R84). A compared
source that borrows the slot's own destination is materialised first, so the result takes the identity lay (log entry 70). -/
def Wave.pair (w : Wave) (covX covY : Mask) (x y : AluOp) : Wave :=
  let writes (cov : Mask) (op : AluOp) : List Write :=
    if cov = 0 then [] else (w.prepareDests cov op.dests).aluWrites cov op
  let run (w : Wave) (cov : Mask) (op : AluOp) (ws : List Write) : Wave :=
    if cov = 0 then w else (w.prepareDests cov op.dests).commit ws
  run (run w covX x (writes covX x)) covY y (writes covY y)

/-- A pair word (R84, R128). -/
def State.pairWord (s : State) (op : PairOp) (x : PairArgs) (y : PairSlot) : Host.Outcome State Fault Refusal :=
  match s.here with
  | none => .fault .noIssuingSlot
  | some h =>
    let covX := h.w.cover h.k x.g
    let covY := h.w.cover h.k y.args.g
    let ox := slotOp h.w.fpctl op x
    let oy := slotOp h.w.fpctl y.op y.args
    .next (s.modGroup h.ctx (fun g =>
      (g.setWave h.wv ((h.w.pair covX covY ox oy).advance h.k)).raise
        ((if covX = 0 then 0 else h.w.aluFlags covX ox) ||| (if covY = 0 then 0 else h.w.aluFlags covY oy))))

/-- A pair word whose slot X is mov (R128). -/
def execPairMov (x : PairArgs) (y : PairSlot) (s : State) : Host.Outcome State Fault Refusal := s.pairWord .mov x y

/-- A pair word whose slot X is iadd (R128). -/
def execPairIadd (x : PairArgs) (y : PairSlot) (s : State) : Host.Outcome State Fault Refusal := s.pairWord .iadd x y

/-- A pair word whose slot X is isub (R128). -/
def execPairIsub (x : PairArgs) (y : PairSlot) (s : State) : Host.Outcome State Fault Refusal := s.pairWord .isub x y

/-- A pair word whose slot X is imul (R128). -/
def execPairImul (x : PairArgs) (y : PairSlot) (s : State) : Host.Outcome State Fault Refusal := s.pairWord .imul x y

/-- A pair word whose slot X is iminS (R128). -/
def execPairIminS (x : PairArgs) (y : PairSlot) (s : State) : Host.Outcome State Fault Refusal := s.pairWord .iminS x y

/-- A pair word whose slot X is imaxS (R128). -/
def execPairImaxS (x : PairArgs) (y : PairSlot) (s : State) : Host.Outcome State Fault Refusal := s.pairWord .imaxS x y

/-- A pair word whose slot X is iminU (R128). -/
def execPairIminU (x : PairArgs) (y : PairSlot) (s : State) : Host.Outcome State Fault Refusal := s.pairWord .iminU x y

/-- A pair word whose slot X is imaxU (R128). -/
def execPairImaxU (x : PairArgs) (y : PairSlot) (s : State) : Host.Outcome State Fault Refusal := s.pairWord .imaxU x y

/-- A pair word whose slot X is and (R128). -/
def execPairAnd (x : PairArgs) (y : PairSlot) (s : State) : Host.Outcome State Fault Refusal := s.pairWord .and x y

/-- A pair word whose slot X is or (R128). -/
def execPairOr (x : PairArgs) (y : PairSlot) (s : State) : Host.Outcome State Fault Refusal := s.pairWord .or x y

/-- A pair word whose slot X is xor (R128). -/
def execPairXor (x : PairArgs) (y : PairSlot) (s : State) : Host.Outcome State Fault Refusal := s.pairWord .xor x y

/-- A pair word whose slot X is shl (R128). -/
def execPairShl (x : PairArgs) (y : PairSlot) (s : State) : Host.Outcome State Fault Refusal := s.pairWord .shl x y

/-- A pair word whose slot X is shr (R128). -/
def execPairShr (x : PairArgs) (y : PairSlot) (s : State) : Host.Outcome State Fault Refusal := s.pairWord .shr x y

/-- A pair word whose slot X is sar (R128). -/
def execPairSar (x : PairArgs) (y : PairSlot) (s : State) : Host.Outcome State Fault Refusal := s.pairWord .sar x y

/-- A pair word whose slot X is popc (R128). -/
def execPairPopc (x : PairArgs) (y : PairSlot) (s : State) : Host.Outcome State Fault Refusal := s.pairWord .popc x y

/-- A pair word whose slot X is clz (R128). -/
def execPairClz (x : PairArgs) (y : PairSlot) (s : State) : Host.Outcome State Fault Refusal := s.pairWord .clz x y

/-- A pair word whose slot X is fadd (R128). -/
def execPairFadd (x : PairArgs) (y : PairSlot) (s : State) : Host.Outcome State Fault Refusal := s.pairWord .fadd x y

/-- A pair word whose slot X is fsub (R128). -/
def execPairFsub (x : PairArgs) (y : PairSlot) (s : State) : Host.Outcome State Fault Refusal := s.pairWord .fsub x y

/-- A pair word whose slot X is fmul (R128). -/
def execPairFmul (x : PairArgs) (y : PairSlot) (s : State) : Host.Outcome State Fault Refusal := s.pairWord .fmul x y

/-- A pair word whose slot X is fmin (R128). -/
def execPairFmin (x : PairArgs) (y : PairSlot) (s : State) : Host.Outcome State Fault Refusal := s.pairWord .fmin x y

/-- A pair word whose slot X is fmax (R128). -/
def execPairFmax (x : PairArgs) (y : PairSlot) (s : State) : Host.Outcome State Fault Refusal := s.pairWord .fmax x y

/-- A pair word whose slot X is pkaddBf (R128). -/
def execPairPkaddBf (x : PairArgs) (y : PairSlot) (s : State) : Host.Outcome State Fault Refusal := s.pairWord .pkaddBf x y

/-- A pair word whose slot X is pkmulBf (R128). -/
def execPairPkmulBf (x : PairArgs) (y : PairSlot) (s : State) : Host.Outcome State Fault Refusal := s.pairWord .pkmulBf x y

end Sys2Proof.Machine
end

