-- ==== Sys2Proof/Machine/Words.lean ====
section
/-! DEFINITION. What a word names, reads and needs before it runs: its registers (R14, R241), the uncorrectable data it consumes
(R303), its issue port and passes (R101, R245, R246). -/

namespace Sys2Proof.Machine

/-- Registers from one up. -/
def regsFrom (r : Reg) (n : Nat) : List Nat := (List.range n).map (fun i => r.toNat + i)

/-- The registers of a data operand of an access size. -/
def sized (m : MSize) (r : Reg) : List Nat := regsFrom r m.regs

/-- The registers of a value that may be a pair. -/
def wideRegs (wide : Bool) (r : Reg) : List Nat := regsFrom r (if wide then 2 else 1)

/-- The registers a pair slot reads. -/
def pairReads (p : PairSlot) : List Nat :=
  (if pairUnary p.op then [] else [p.args.vd.toNat]) ++ (match p.args.src with | .reg vs => [vs.toNat] | .imm _ => [])

/-- The registers whose values a covered thread reads for itself, and those the word writes. A map edit's source and a register
whose lay alone is used stand with `namedOf`. -/
def usesOf : Instr → List Nat × List Nat
  | .nop _ => ([], [])
  | .mov _ vd va d => (wideRegs d va, wideRegs d vd)
  | .movi _ vd _ => ([], [vd.toNat])
  | .iadd _ vd va vb _ _ | .isub _ vd va vb _ _ | .imul _ vd va vb _ _ => ([va.toNat, vb.toNat], [vd.toNat])
  | .iaddc _ vd va vb _ _ => ([va.toNat, vb.toNat], [vd.toNat])
  | .imulh _ vd va vb _ | .imin _ vd va vb _ | .imax _ vd va vb _ => ([va.toNat, vb.toNat], [vd.toNat])
  | .shl _ vd va vb _ | .shr _ vd va vb _ | .sar _ vd va vb _ | .bfe _ vd va vb _ => ([va.toNat, vb.toNat], [vd.toNat])
  | .sel _ vd va vb _ => ([va.toNat, vb.toNat], [vd.toNat])
  | .and _ vd va vb | .or _ vd va vb | .xor _ vd va vb => ([va.toNat, vb.toNat], [vd.toNat])
  | .iaddImmediate _ vd va _ | .andImmediate _ vd va _ | .orImmediate _ vd va _ | .xorImmediate _ vd va _ => ([va.toNat], [vd.toNat])
  | .imad _ vd va vb vc wide _ _ => ([va.toNat, vb.toNat] ++ wideRegs wide vc, wideRegs wide vd)
  | .iabs _ vd va _ => ([va.toNat], [vd.toNat])
  | .popc _ vd va | .clz _ vd va | .brev _ vd va => ([va.toNat], [vd.toNat])
  | .blut _ vd va vb vc _ | .fshl _ vd va vb vc _ | .fshr _ vd va vb vc _ => ([va.toNat, vb.toNat, vc.toNat], [vd.toNat])
  | .bfi _ vd va vb vc | .bperm _ vd va vb vc => ([va.toNat, vb.toNat, vc.toNat], [vd.toNat])
  | .icmp _ _ va vb _ _ _ d _ => (wideRegs d va ++ wideRegs d vb, [])
  | .fadd _ vd va vb _ | .fsub _ vd va vb _ | .fmul _ vd va vb _ => ([va.toNat, vb.toNat], [vd.toNat])
  | .ffma _ vd va vb vc _ => ([va.toNat, vb.toNat, vc.toNat], [vd.toNat])
  | .fmin _ vd va vb | .fmax _ vd va vb => ([va.toNat, vb.toNat], [vd.toNat])
  | .fcmp _ _ va vb _ _ _ => ([va.toNat, vb.toNat], [])
  | .frcp _ vd va _ | .frsq _ vd va _ | .fsqrt _ vd va _ | .fexp2 _ vd va _ | .flog2 _ vd va _ => ([va.toNat], [vd.toNat])
  | .fclass _ vd va => ([va.toNat], [vd.toNat])
  | .pkadd _ vd va vb _ _ | .pkmul _ vd va vb _ _ => ([va.toNat, vb.toNat], [vd.toNat])
  | .pkfma _ vd va vb vc _ _ => ([va.toNat, vb.toNat, vc.toNat], [vd.toNat])
  | .cvt _ vd va _ _ dst src _ => (wideRegs (src.bits == 64) va, wideRegs (dst.bits == 64) vd)
  | .bxpk _ vd va _ _ => ([va.toNat], [vd.toNat])
  | .bxupk _ vd _ _ => ([], [vd.toNat])
  | .pairMov x y => (pairReads ⟨.mov, x⟩ ++ pairReads y, [x.vd.toNat, y.args.vd.toNat])
  | .pairPopc x y => (pairReads ⟨.popc, x⟩ ++ pairReads y, [x.vd.toNat, y.args.vd.toNat])
  | .pairClz x y => (pairReads ⟨.clz, x⟩ ++ pairReads y, [x.vd.toNat, y.args.vd.toNat])
  | .pairIadd x y | .pairIsub x y | .pairImul x y | .pairIminS x y | .pairImaxS x y | .pairIminU x y | .pairImaxU x y
  | .pairAnd x y | .pairOr x y | .pairXor x y | .pairShl x y | .pairShr x y | .pairSar x y
  | .pairFadd x y | .pairFsub x y | .pairFmul x y | .pairFmin x y | .pairFmax x y | .pairPkaddBf x y | .pairPkmulBf x y =>
    (pairReads ⟨.iadd, x⟩ ++ pairReads y, [x.vd.toNat, y.args.vd.toNat])
  | .shfl _ vd _ vb _ _ => ([vb.toNat], [vd.toNat])
  | .shflx _ vd _ _ _ | .shflup _ vd _ _ _ | .shfldn _ vd _ _ _ | .bcast _ vd _ _ _ => ([], [vd.toNat])
  | .lxpose _ vd _ _ => ([], [vd.toNat])
  | .compact _ vd _ _ | .expand _ vd _ _ => ([], [vd.toNat])
  | .relay _ vd => ([], [vd.toNat])
  | .layrd _ vd _ _ => ([], [vd.toNat])
  | .laywr _ vd va => ([va.toNat], [vd.toNat])
  | .voteBallot _ vd _ => ([], [vd.toNat])
  | .voteAny _ _ _ | .voteAll _ _ _ | .voteEq _ _ _ => ([], [])
  | .gred _ vd va _ _ _ => ([va.toNat], [vd.toNat])
  | .gscan _ vd va _ _ _ _ => ([va.toNat], [vd.toNat])
  | .matchv _ vd va all d => (wideRegs d va, if all then [] else [vd.toNat])
  | .bra _ _ _ => ([], [])
  | .braAny _ _ => ([], [])
  | .brx _ va => (wideRegs true va, [])
  | .join | .setexRst => ([], [])
  | .call _ _ => ([], [])
  | .ret _ | .exit _ | .yield _ => ([], [])
  | .setexP _ _ => ([], [])
  | .setexV _ va => ([va.toNat], [])
  | .getex _ vd _ => ([], [vd.toNat])
  | .plop _ _ _ _ _ _ => ([], [])
  | .p2v _ vd => ([], [vd.toNat])
  | .v2p _ va _ => ([va.toNat], [])
  | .spawn _ va vb vc => (wideRegs true va ++ [vb.toNat, vc.toNat], [])
  | .ld _ vd va m _ | .lds _ vd va m _ => (addrRegs (m.space == .scratch) va, sized m.size vd)
  | .st _ vd va m _ | .sts _ vd va m _ => (addrRegs (m.space == .scratch) va ++ sized m.size vd, [])
  | .ldu _ vd va vb m _ => (addrRegs (m.space == .scratch) va ++ [vb.toNat], sized m.size vd)
  | .stu _ vd va vb m _ => (addrRegs (m.space == .scratch) va ++ [vb.toNat] ++ sized m.size vd, [])
  | .ld2s _ vd va vb _ _ => (wideRegs true va ++ [vb.toNat, vd.toNat], [])
  | .pref _ va _ _ => (wideRegs true va, [])
  | .cmaintDrop _ va _ | .cmaintClean _ va _ | .cmaintFlush _ va _ => (wideRegs true va, [])
  | .cmaintDropall _ => ([], [])
  | .atom _ vd va vb a _ => (addrRegs a.scratch va ++ wideRegs a.wide vb, wideRegs a.wide vd)
  | .red _ va vb a _ => (addrRegs a.scratch va ++ wideRegs a.wide vb, [])
  | .cas _ vd va vb a _ => (addrRegs a.scratch va ++ regsFrom vb (if a.wide then 4 else 2), wideRegs a.wide vd)
  | .fence _ _ _ => ([], [])
  | .mscmd _ vd va _ => (wideRegs true va ++ [vd.toNat], [])
  | .barSync _ vd va _ _ fuse => if fuse.isSome then ([va.toNat], [vd.toNat]) else ([], [])
  | .barArr _ _ _ | .barWait _ _ _ => ([], [])
  | .barExp _ va _ => ([va.toNat], [])
  | .bartx _ va _ _ => ([va.toNat], [])
  | .cpyLin _ vd va vb _ ss ds => (addrRegs ds vd ++ addrRegs ss va ++ [vb.toNat], [])
  | .cpyTld _ vd va _ _ => (regsFrom va 4 ++ [vd.toNat], [])
  | .cpyTst _ vd va _ _ | .cpyTred _ vd va _ _ => (regsFrom vd 4 ++ [va.toNat], [])
  | .publ _ va => (wideRegs true va, [])
  | .cpywp _ vd _ => ([], [vd.toNat])
  | .cpywt _ _ => ([], [])
  | .cpymc _ vd va vb vc _ _ => ([vd.toNat, va.toNat, vc.toNat] ++ wideRegs true vb, [])
  | .coll _ va _ => (wideRegs true va, [])
  | .collwt _ _ => ([], [])
  | .wvsel _ va => ([va.toNat], [])
  | .trpk _ vd va | .trupk _ vd va | .trspk _ vd va | .trsupk _ vd va => ([va.toNat], [vd.toNat])
  | .tld _ vd va vb vc _ _ _ => (wideRegs true vd ++ wideRegs true va ++ [vb.toNat, vc.toNat], [])
  | .mma _ vd va vb vc _ => (regsFrom va 8 ++ [vd.toNat, vb.toNat, vc.toNat], [])
  | .mmas _ va vb vc _ _ _ => ([va.toNat, vb.toNat, vc.toNat], [])
  | .mmag _ vd va vb vc _ _ _ => ([vd.toNat, va.toNat, vb.toNat, vc.toNat], [])
  | .aclr _ vc _ => ([vc.toNat], [])
  | .adrain _ va _ vc _ _ => (regsFrom va 4 ++ [vc.toNat], [])
  | .ard _ vd va vc raw _ => ([va.toNat, vc.toNat], regsFrom vd (if raw then 4 else 8))
  | .mfence _ vd => ([], [vd.toNat])
  | .mwait _ va => ([va.toNat], [])
  | .mwaitAll _ => ([], [])
  | .achk _ vd vc _ => ([vc.toNat], regsFrom vd 9)
  | .aflip _ va _ => ([va.toNat], [])
  | .qset _ _ va => ([va.toNat], [])
  | .qget _ vd _ => ([], [vd.toNat])
  | .trap _ _ | .bpt _ _ => ([], [])
  | .rtt _ | .rttKill _ => ([], [])
  | .sysrd _ vd _ => ([], [vd.toNat])
  | .syswr _ va _ => ([va.toNat], [])
  | .preemptOff _ | .preemptOn _ => ([], [])
  | .evrec _ va _ => ([va.toNat], [])
  | .halt _ => ([], [])
  | .sleep _ _ => ([], [])
  | .icinv _ va all => (if all then [] else wideRegs true va, [])
  | .genbump _ vd va => ([va.toNat], [vd.toNat])
  | .tlbinv _ va _ all => (if all then [] else wideRegs true va, [])
  | .stest _ vd _ => ([], [vd.toNat])
  | .lsupd _ vd _ => ([], [vd.toNat])
  | .issue _ _ | .starvation _ | .sleepExpiry _ | .binTimerExpiry _ _ | .binLaunch _ _ | .memoryRequestArrival _ _
  | .loadDataDelivery _ _ | .faultRecord _ _ | .parkedWordGiveUp _ _ | .haltArrival _ _ | .siblingStop _ _
  | .handlerEntry _ | .strike _ | .rollbackResume _ | .matrixOrderBegin _ | .shadowReady _ | .mmagGroupStart _
  | .occupancyEnd _ | .matrixComplete _ | .drainBufferFree _ _ | .batchRetire _ _ | .copyChunk _ _
  | .ld2sDelivery _ _ | .reservationGrant _ | .chargeExpiry _ | .arbiterAging _ | .doorbell _ _ _ | .genreq _ _ _
  | .faultdbWrite _ _ _ | .registerWrite _ _ _ _ | .pwrlimWrite _ | .testpolWrite _ | .thaw _ | .decisionPoint _
  | .gangPlaced _ _ | .priorityAging _ | .workGroupEnd _ | .launchComplete _ | .graphChildStart _ _
  | .engineStopAck _ _ | .preemptionComplete _ | .preemptBudgetExpiry _ | .remoteStopTimeout _ | .genBumpComplete _
  | .fabricRequest _ _ | .fabricReply _ | .retransmitTimeout _ | .operationAgeExpiry _ | .cleatEntryAge _ _ _
  | .watermarkQuery _ _ | .watermarkAnswer _ _ _ | .cleatAbandon _ _ _ | .pairForget _ _ | .flitCrcFail _ _
  | .rateStepDown _ | .laneRetrainEnd _ | .rateStepUp _ | .sprayResend _ | .braidReady _ | .collComplete _
  | .hostBar4Access _ _ _ _ _ | .getVersion _ | .getCapabilities _ | .negotiateAlgorithms _ | .getDigests _
  | .getCertificate _ | .challenge _ _ | .getMeasurements _ _ | .keyExchange _ _ | .finish _ _ | .heartbeat _ _
  | .keyUpdate _ _ | .endSession _ _ | .tdiLock _ _ | .tdiStart _ _ | .stopInterface _ _ | .partitionConfig _ _
  | .partitionReset _ | .partitionResetEnd _ | .correctedError _ | .selfTestEnd _ | .registerBankRetire _ _ _
  | .spareRowEntry _ _ | .inFieldTestDue _ | .inFieldTestStart _ | .inFieldTestEnd _ | .supplySag _ _
  | .sagRecoveryStep _ | .ratioChange _ _ | .thermalStep _ | .limitHalve _ | .fatalError _ | .coldReset _ _ | .warmReset _ _
  | .castRecordRead _ | .firmwareStage _ | .firmwareApply _ | .firmwareCommit _ _ _ | .supplyRecovery _
  | .limitRestore _ | .uncorrectableError _ _ | .debugAgentResume _ _ | .effectLeavesCore _ _ | .linkKeyUpdate _ _ _
  | .ctxidReuseDelayEnd _ => ([], [])

/-- The register a word names without a thread's own reading it: a map edit's source, LAYRD's operand, BXUPK's block. -/
def sourceOf : Instr → Option Reg
  | .shfl _ _ vs _ _ _ | .shflx _ _ vs _ _ | .shflup _ _ vs _ _ | .shfldn _ _ vs _ _ | .bcast _ _ vs _ _ => some vs
  | .lxpose _ _ vs _ | .compact _ _ vs _ | .expand _ _ vs _ => some vs
  | .layrd _ _ va _ => some va
  | .bxupk _ _ va _ => some va
  | _ => none

/-- Every vector register a word names (R14). -/
def namedOf (i : Instr) : List Nat := (usesOf i).1 ++ (usesOf i).2 ++ ((sourceOf i).map BitVec.toNat).toList

/-- A word's guard; unconditional where it has none. A pair word has one in each slot. -/
def guardsOf : Instr → List Guard
  | .nop g | .mov g _ _ _ | .movi g _ _ | .iadd g _ _ _ _ _ | .iaddImmediate g _ _ _ | .isub g _ _ _ _ _
  | .iaddc g _ _ _ _ _ | .imul g _ _ _ _ _ | .imulh g _ _ _ _ | .imad g _ _ _ _ _ _ _ | .imin g _ _ _ _
  | .imax g _ _ _ _ | .iabs g _ _ _ | .and g _ _ _ | .andImmediate g _ _ _ | .or g _ _ _ | .orImmediate g _ _ _
  | .xor g _ _ _ | .xorImmediate g _ _ _ | .blut g _ _ _ _ _ | .shl g _ _ _ _ | .shr g _ _ _ _ | .sar g _ _ _ _
  | .fshl g _ _ _ _ _ | .fshr g _ _ _ _ _ | .bfe g _ _ _ _ | .bfi g _ _ _ _ | .popc g _ _ | .clz g _ _ | .brev g _ _
  | .icmp g _ _ _ _ _ _ _ _ | .sel g _ _ _ _ | .bperm g _ _ _ _ | .fadd g _ _ _ _ | .fsub g _ _ _ _ | .fmul g _ _ _ _
  | .ffma g _ _ _ _ _ | .fmin g _ _ _ | .fmax g _ _ _ | .fcmp g _ _ _ _ _ _ | .frcp g _ _ _ | .frsq g _ _ _
  | .fsqrt g _ _ _ | .fexp2 g _ _ _ | .flog2 g _ _ _ | .fclass g _ _ | .pkadd g _ _ _ _ _ | .pkmul g _ _ _ _ _
  | .pkfma g _ _ _ _ _ _ | .cvt g _ _ _ _ _ _ _ | .bxpk g _ _ _ _ | .bxupk g _ _ _
  | .shfl g _ _ _ _ _ | .shflx g _ _ _ _ | .shflup g _ _ _ _ | .shfldn g _ _ _ _ | .bcast g _ _ _ _
  | .lxpose g _ _ _ | .compact g _ _ _ | .expand g _ _ _ | .layrd g _ _ _ | .laywr g _ _ | .voteBallot g _ _
  | .voteAny g _ _ | .voteAll g _ _ | .voteEq g _ _ | .gred g _ _ _ _ _ | .gscan g _ _ _ _ _ _ | .matchv g _ _ _ _
  | .bra g _ _ | .braAny g _ | .brx g _ | .call g _ | .ret g | .exit g | .setexP g _ | .setexV g _ | .getex g _ _
  | .plop g _ _ _ _ _ | .p2v g _ | .v2p g _ _ | .spawn g _ _ _ | .ld g _ _ _ _ | .st g _ _ _ _ | .lds g _ _ _ _
  | .sts g _ _ _ _ | .ldu g _ _ _ _ _ | .stu g _ _ _ _ _ | .ld2s g _ _ _ _ _ | .pref g _ _ _ | .cmaintDrop g _ _
  | .cmaintDropall g | .cmaintClean g _ _ | .cmaintFlush g _ _ | .atom g _ _ _ _ _ | .red g _ _ _ _ | .cas g _ _ _ _ _
  | .mscmd g _ _ _ | .barSync g _ _ _ _ _ | .barArr g _ _ | .barWait g _ _ | .barExp g _ _ | .bartx g _ _ _
  | .cpyLin g _ _ _ _ _ _ | .cpyTld g _ _ _ _ | .cpyTst g _ _ _ _ | .cpyTred g _ _ _ _ | .publ g _ | .cpywp g _ _
  | .cpymc g _ _ _ _ _ _ | .coll g _ _ | .wvsel g _ | .trpk g _ _ | .trupk g _ _ | .trspk g _ _ | .trsupk g _ _
  | .tld g _ _ _ _ _ _ _ | .mma g _ _ _ _ _ | .mmas g _ _ _ _ _ _ | .mmag g _ _ _ _ _ _ _ | .aclr g _ _
  | .adrain g _ _ _ _ _ | .ard g _ _ _ _ _ | .mfence g _ | .mwait g _ | .achk g _ _ _ | .aflip g _ _ | .qset g _ _
  | .qget g _ _ | .trap g _ | .bpt g _ | .sysrd g _ _ | .syswr g _ _ | .evrec g _ _ | .icinv g _ _ | .genbump g _ _
  | .tlbinv g _ _ _ | .stest g _ _ | .lsupd g _ _ => [g]
  | .pairMov x y | .pairIadd x y | .pairIsub x y | .pairImul x y | .pairIminS x y | .pairImaxS x y | .pairIminU x y
  | .pairImaxU x y | .pairAnd x y | .pairOr x y | .pairXor x y | .pairShl x y | .pairShr x y | .pairSar x y
  | .pairPopc x y | .pairClz x y | .pairFadd x y | .pairFsub x y | .pairFmul x y | .pairFmin x y | .pairFmax x y
  | .pairPkaddBf x y | .pairPkmulBf x y => [x.g, y.args.g]
  | _ => []

/-- The predicates whose bits a covered thread reads, its guard apart. -/
def predsOf : Instr → List PredNo
  | .iaddc _ _ _ _ pc ci => if ci then [pc] else []
  | .icmp _ _ _ _ pc _ comb _ _ => if comb == .none then [] else [pc]
  | .fcmp _ _ _ _ pc _ comb => if comb == .none then [] else [pc]
  | .sel _ _ _ _ pc => [pc]
  | .compact _ _ _ pc | .expand _ _ _ pc => [pc]
  | .voteBallot _ _ pc | .voteAny _ _ pc | .voteAll _ _ pc | .voteEq _ _ pc => [pc]
  | .setexP _ pc => [pc]
  | .plop _ _ pa pb pc _ => [pa, pb, pc]
  | .p2v _ _ => (List.range 7).map (fun i => BitVec.ofNat 3 i)
  | _ => []

/-- The source of a map edit for each thread (R134–R136). -/
def editOf (w : Wave) (cov : Mask) : Instr → Option (Lane → Option Lane)
  | .shfl _ _ _ vb wid z => some (shflFrom w vb wid z)
  | .shflx _ _ _ wid k => some (shflxFrom w wid k)
  | .shflup _ _ _ wid k => some (shflupFrom w wid k)
  | .shfldn _ _ _ wid k => some (shfldnFrom w wid k)
  | .bcast _ _ _ wid k => some (bcastFrom w wid k)
  | .lxpose _ _ _ rows => some (lxposeFrom rows)
  | .compact _ _ _ pc => some (compactFrom w cov pc)
  | .expand _ _ _ pc => some (expandFrom w cov pc)
  | _ => none

/-! ## Uncorrectable data that a word consumes (R303) -/

/-- A thread's reading of a register meets an uncorrectable element; of a uniform value, any bad element counts. -/
def Wave.readsBad (w : Wave) (r : Nat) (t : Lane) : Bool :=
  if (w.reg r).tag == .uniform then !(w.badOf (w.baseOf r)).isEmpty
  else match (w.reg r).loc[t] with
    | none => false
    | some e => w.badElems.contains (w.baseOf r, e.val)

/-- A thread's bit of a predicate is uncorrectable. -/
def Wave.predBad (w : Wave) (p : PredNo) (t : Lane) : Bool := w.badPreds.contains (p.toNat, t.val)

/-- The registers whose values a covered thread reads for itself: MMA reads no block header with an INT8 stream (R204). -/
def Wave.readsOf (w : Wave) (cov : Mask) (i : Instr) : List Nat :=
  match i with
  | .mma _ vd va vb vc _ =>
    regsFrom va 8 ++ [vb.toNat, vc.toNat] ++ (if fwAF (w.read vc.toNat (Mask.lowest cov)) = 0 then [] else [vd.toNat])
  | i => (usesOf i).1

/-- The threads of a slot that consume uncorrectable data by a word. -/
def Wave.consumers (w : Wave) (k : Fin 2) (i : Instr) : Mask :=
  if w.badElems.isEmpty && w.badPreds.isEmpty then 0
  else
    let cov := match guardsOf i with
      | [] => 0
      | gs => gs.foldl (fun m g => m ||| w.cover k g) 0
    Mask.ofPred (fun t =>
      (Mask.has (w.exec k) t && (guardsOf i).any (fun g => g.gp != 7 && w.predBad g.gp t)) ||
      (Mask.has cov t &&
        ((w.readsOf cov i).any (fun r => w.readsBad r t) || (predsOf i).any (fun p => w.predBad p t) ||
         (match editOf w cov i, sourceOf i with
          | some f, some vs => !w.full cov && (match f t with
            | none => false
            | some q => !Mask.has w.exited q && !Mask.has w.dead q && w.readsBad vs.toNat q)
          | _, _ => false) ||
         (match i with
          | .bxupk _ _ va fmt => (List.range (sxWords fmt)).any (fun j => w.readsBad va.toNat (laneOf (group16 t + j)))
          | _ => false))))

/-! ## Lay changes (R241) -/

/-- A write of a register changes its lay, tag or borrowers: a full one may, a partial one where the register is not plain. -/
def Wave.writeRelays (w : Wave) (cov : Mask) (r : Nat) : Bool :=
  cov != 0 && (w.full cov || !w.isIdentity r || !(w.reg r).borrowers.isEmpty || (w.reg r).tag != .none)

/-- Sources that R38 may gather: those of a VALU word that does not keep their common entries. -/
def Wave.gathers (w : Wave) (cov : Mask) (srcs : List Nat) : List Nat :=
  if cov == 0 || (w.full cov && (w.commonLay srcs).isSome) then [] else (w.compared srcs).filter (fun r => !w.isIdentity r)

/-! ## Ports and passes (R101, R132, R245, R246) -/

/-- The port of a word by its group, tags apart. -/
def groupPort : Instr → IssuePort
  | .mov _ _ _ _ | .movi _ _ _ | .iadd _ _ _ _ _ _ | .iaddImmediate _ _ _ _ | .isub _ _ _ _ _ _ | .iaddc _ _ _ _ _ _
  | .imul _ _ _ _ _ _ | .imulh _ _ _ _ _ | .imad _ _ _ _ _ _ _ _ | .imin _ _ _ _ _ | .imax _ _ _ _ _ | .iabs _ _ _ _
  | .and _ _ _ _ | .andImmediate _ _ _ _ | .or _ _ _ _ | .orImmediate _ _ _ _ | .xor _ _ _ _ | .xorImmediate _ _ _ _
  | .blut _ _ _ _ _ _ | .shl _ _ _ _ _ | .shr _ _ _ _ _ | .sar _ _ _ _ _ | .fshl _ _ _ _ _ _ | .fshr _ _ _ _ _ _
  | .bfe _ _ _ _ _ | .bfi _ _ _ _ _ | .popc _ _ _ | .clz _ _ _ | .brev _ _ _ | .icmp _ _ _ _ _ _ _ _ _ | .sel _ _ _ _ _
  | .bperm _ _ _ _ _ | .fadd _ _ _ _ _ | .fsub _ _ _ _ _ | .fmul _ _ _ _ _ | .ffma _ _ _ _ _ _ | .fmin _ _ _ _
  | .fmax _ _ _ _ | .fcmp _ _ _ _ _ _ _ | .frcp _ _ _ _ | .frsq _ _ _ _ | .fsqrt _ _ _ _ | .fexp2 _ _ _ _ | .flog2 _ _ _ _
  | .fclass _ _ _ | .pkadd _ _ _ _ _ _ | .pkmul _ _ _ _ _ _ | .pkfma _ _ _ _ _ _ _ | .cvt _ _ _ _ _ _ _ _ | .bxpk _ _ _ _ _
  | .bxupk _ _ _ _ | .layrd _ _ _ _ | .voteBallot _ _ _ | .voteAny _ _ _ | .voteAll _ _ _ | .voteEq _ _ _ | .gred _ _ _ _ _ _
  | .gscan _ _ _ _ _ _ _ | .matchv _ _ _ _ _ | .p2v _ _ | .v2p _ _ _ | .plop _ _ _ _ _ _ | .getex _ _ _
  | .trpk _ _ _ | .trupk _ _ _ | .trspk _ _ _ | .trsupk _ _ _ => .valu
  | .pairMov _ _ | .pairIadd _ _ | .pairIsub _ _ | .pairImul _ _ | .pairIminS _ _ | .pairImaxS _ _ | .pairIminU _ _
  | .pairImaxU _ _ | .pairAnd _ _ | .pairOr _ _ | .pairXor _ _ | .pairShl _ _ | .pairShr _ _ | .pairSar _ _
  | .pairPopc _ _ | .pairClz _ _ | .pairFadd _ _ | .pairFsub _ _ | .pairFmul _ _ | .pairFmin _ _ | .pairFmax _ _
  | .pairPkaddBf _ _ | .pairPkmulBf _ _ => .pair
  | .ld _ _ _ _ _ | .st _ _ _ _ _ | .lds _ _ _ _ _ | .sts _ _ _ _ _ | .ldu _ _ _ _ _ _ | .stu _ _ _ _ _ _ | .ld2s _ _ _ _ _ _
  | .pref _ _ _ _ | .cmaintDrop _ _ _ | .cmaintDropall _ | .cmaintClean _ _ _ | .cmaintFlush _ _ _ | .atom _ _ _ _ _ _
  | .red _ _ _ _ _ | .cas _ _ _ _ _ _ | .fence _ _ _ | .mscmd _ _ _ _ => .lsu
  | _ => .ube

/-- A word whose result R244 never tags. -/
def untagged : Instr → Bool
  | .icmp _ _ _ _ _ _ _ _ _ | .fcmp _ _ _ _ _ _ _ | .sel _ _ _ _ _ | .iaddc _ _ _ _ _ _ | .imulh _ _ _ _ _
  | .frcp _ _ _ _ | .frsq _ _ _ _ | .fsqrt _ _ _ _ | .fexp2 _ _ _ _ | .flog2 _ _ _ _
  | .pkadd _ _ _ _ _ _ | .pkmul _ _ _ _ _ _ | .pkfma _ _ _ _ _ _ _ | .bxpk _ _ _ _ _ | .bxupk _ _ _ _
  | .layrd _ _ _ _ | .voteBallot _ _ _ | .voteAny _ _ _ | .voteAll _ _ _ | .voteEq _ _ _ | .gred _ _ _ _ _ _
  | .gscan _ _ _ _ _ _ _ | .matchv _ _ _ _ _ | .p2v _ _ | .v2p _ _ _ | .plop _ _ _ _ _ _ | .getex _ _ _
  | .trpk _ _ _ | .trupk _ _ _ | .trspk _ _ _ | .trsupk _ _ _ => true
  | .cvt _ _ _ _ _ dst src _ => dst.bits == 64 || src.bits == 64
  | .imad _ _ _ _ _ wide _ _ => wide
  | _ => false

/-- The tag that a fully covering word of the integer and floating-point groups gives its result (R244). -/
def tagOf (i : Instr) (ts : List Tag) : Tag :=
  match i with
  | .mov _ _ _ _ => tagMov ts
  | .iadd _ _ _ _ sat _ | .isub _ _ _ _ sat _ => tagAdd sat ts
  | .iaddImmediate _ _ _ _ => tagAdd false ts
  | .imul _ _ _ _ sat _ => tagScale sat ts
  | .shl _ _ _ _ cl => tagScale cl ts
  | _ => if untagged i then .none else tagUniform ts

/-- The port a word issues to (R245, R246): a VALU word with full cover whose result is tagged goes to the uniform port, as do a
map edit with full cover and a comparison of uniform sources. -/
def Wave.port (w : Wave) (k : Fin 2) (i : Instr) : IssuePort :=
  let full := (guardsOf i).all (fun g => w.full (w.cover k g))
  let tags := (usesOf i).1.map (fun r => (w.reg r).tag)
  let compares := match i with
    | .icmp _ _ _ _ _ _ _ _ _ => true
    | .fcmp _ _ _ _ _ _ _ => true
    | _ => false
  match groupPort i with
  | .valu => if full && (if compares then tags.all (fun t => t == .uniform) else tagOf i tags != .none) then .ube else .valu
  | .ube => if (editOf w 0 i).isSome && !full then .valu else .ube
  | .pair => .pair
  | .lsu => .lsu

/-- VALU passes of a word (R101, R132). -/
def passesOf : Instr → Nat
  | .imulh _ _ _ _ _ => 2
  | .imad _ _ _ _ _ wide _ _ => if wide then 2 else 1
  | .cvt _ _ _ _ _ dst src _ => if dst.bits = 64 ∨ src.bits = 64 then 2 else 1
  | .frcp _ _ _ _ | .frsq _ _ _ _ | .fsqrt _ _ _ _ | .fexp2 _ _ _ _ | .flog2 _ _ _ _ => 4
  | .bxpk _ _ _ _ _ | .bxupk _ _ _ _ => 2
  | .gred _ _ _ op _ _ => if op == .fadd then 2 else 1
  | .gscan _ _ _ op _ _ _ => if op == .fadd then 2 else 1
  | i => if groupPort i = .pair then 2 else 1

/-- Registers whose lay, tag, base or borrower list a word changes, or that it gathers to identity (R241). -/
def Wave.layChanges (w : Wave) (k : Fin 2) (i : Instr) : List Nat :=
  let cov := (guardsOf i).foldl (fun m g => m ||| w.cover k g) 0
  let gathered := match groupPort i with
    | .valu => w.gathers cov (usesOf i).1
    | .pair => w.gathers cov (usesOf i).1
    | .lsu => []
    | .ube => []
  let edited := match editOf w cov i, sourceOf i with
    | some _, some vs => if cov = 0 then [] else [w.baseOf vs.toNat]
    | _, _ => []
  let relaid := match i with
    | .relay _ vd => [vd.toNat]
    | .laywr _ vd _ => if cov = 0 then [] else [vd.toNat]
    | _ => []
  (usesOf i).2.filter (w.writeRelays cov) ++ gathered ++ edited ++ relaid

end Sys2Proof.Machine
end

