-- ==== Sys2Proof/Machine/Fetch.lean ====
section
/-! DEFINITION. Before a word issues: fetching and decoding it, who may issue and in which order, the core clock, words that give
up (R71, R238–R248, R302, R386, R406, R407). -/

namespace Sys2Proof.Machine

/-! ## Fetch and decode -/

/-- A word decoded in a mode: 0 native, 1 Z6, 2 Z5 (R407). -/
def decodeIn (mode : Nat) (w : BitVec 64) : Except DecodeError Instr :=
  match mode with
  | 1 => match fromZ6 w with
    | some x => decode x
    | none => .error .legacy
  | 2 => match fromZ5 w with
    | some x => decode x
    | none => .error .legacy
  | _ => decode w

/-- What a fetch gives. -/
inductive Fetched
  | word (w : BitVec 64)
  /-- the page faults, and the slot waits for the record's reply (R360) -/
  | waits (token : Nat)
  | trap (cause : Cause)
  /-- the word is uncorrectable (R303) -/
  | bad
  deriving DecidableEq, Repr

/-- The word a core's instruction cache holds for an address. -/
def Core.cachedWord (c : Core) (asid : BitVec 16) (pc : Addr) : Option (BitVec 64) :=
  (c.icache.find? (fun e => e.1 == asid && e.2.1 == pc)).map (fun e => e.2.2)

/-- A word enters the instruction cache. -/
def Core.cacheWord (c : Core) (asid : BitVec 16) (pc : Addr) (w : BitVec 64) : Core :=
  if c.cachedWord asid pc = some w then c
  else { c with icache := (asid, pc, w) :: c.icache.filter (fun e => !(e.1 == asid && e.2.1 == pc)) }

/-- The word as memory has it, or an older one that the core still caches (R406). -/
def State.freshWord (s : State) (core : Nat) (asid : BitVec 16) (pc : Addr) (w : BitVec 64) : State × Fetched :=
  match (s.core core).cachedWord asid pc with
  | some old =>
    if old = w then (s, .word w)
    else if Config.useCached s.fresh then (s.draw, .word old)
    else (s.draw.modCore core (fun c => c.cacheWord asid pc w), .word w)
  | none => (s.modCore core (fun c => c.cacheWord asid pc w), .word w)

/-- The fetch of the word a slot's pc names (R354, R360, R406, R435). -/
def State.fetch (s : State) (h : Here) : State × Fetched :=
  let core := h.g.core
  match canonical h.pc with
  | none => (s, .trap .pageFault)
  | some va =>
    match s.translate core h.g.part h.g.asid va with
    | (s1, .error .invalid) =>
      if s1.hasQueue h.g.part h.g.asid.toNat then
        let (s2, t) := s1.reportFault core h.g.part h.g.asid va .fetch
        (s2, .waits t)
      else (s1, .trap .pageFault)
    | (s1, .error (.poison b)) => (s1.poisonMet core h.g.part h.g.asid b, .trap .translationPoison)
    | (s1, .error (.beyond a)) => ({ s1 with beyond := some (h.g.part, a) }, .trap .pageFault)
    | (s1, .ok l) =>
      match s1.granted h.g.part l .fetch h.w.tag.toNat va with
      | none => (s1, .trap .permission)
      | some t =>
        match s1.readAt h.g.part t 8 with
        | (s2, _, true) => (s2, .bad)
        | (s2, bs, false) => s2.freshWord core h.g.asid h.pc (wordOfBytes bs)

/-- The cause that a slot's word has still to raise, and its address (R360). -/
def PathSlot.toRaise (p : PathSlot) : Option (Cause × Addr) :=
  match p.wait with
  | some (.gaveUp c a) => some (c, a)
  | _ => none

/-- The instruction a slot would issue next, as its fetch would give it now. -/
def State.peek (s : State) (h : Here) : Option Instr :=
  if (h.w.slots[h.k]).toRaise.isSome then none
  else
  match (s.fetch h).2 with
  | .word x =>
    match decodeIn h.g.image.mode x with
    | .ok i => some i
    | .error _ => none
  | .waits _ | .trap _ | .bad => none

/-- The mode a word needs that its kernel does not run in (R87, R88, R193, R221). -/
def State.modeCheck (s : State) (h : Here) : Instr → Option Cause
  | .ld _ _ _ m _ | .st _ _ _ m _ => if m.space == .window && !h.g.priv then some .privilege else none
  | .halt _ | .icinv _ _ _ | .genbump _ _ _ | .tlbinv _ _ _ _ | .stest _ _ _ => if h.g.priv then none else some .privilege
  | .aflip _ _ _ => if h.g.test then none else some .privilege
  | .sysrd _ _ n => (s.sysTrap h n.toNat false).map (fun t => t.cause)
  | .syswr _ _ n => (s.sysTrap h n.toNat true).map (fun t => t.cause)
  | _ => none

/-- What the decode checks find of a word, ILLEGAL_OPCODE before PRIVILEGE (R14, R87, R88). -/
def State.decodeCheck (s : State) (h : Here) (i : Instr) : Option Cause :=
  if (namedOf i).any (fun r => decide (h.w.regCount ≤ r)) then some .illegalOpcode else s.modeCheck h i

/-! ## The scoreboard (R241, R242) -/

/-- Registers that memory words of a wave have still to write; `own`: those of words that come before the slot's. -/
def State.pendingDests (s : State) (h : Here) (own : Bool) : List Nat :=
  (((s.core h.g.core).log ++ (s.core h.g.core).reqs).filter (fun e =>
    e.2.ctx == h.ctx && e.2.wave == h.wv && (h.w.slots[h.k]).follows e.1 e.2 == own)).flatMap (fun e => e.2.spec.dests)

/-- A register with its base and its borrowers. -/
def Wave.near (w : Wave) (r : Nat) : List Nat := r :: w.baseOf r :: (w.reg r).borrowers

/-- The word waits for a pending write: of a register or a lay that it reads or writes, by an earlier word of its slot (a pending
write changes the lays of its destination's borrowers too, R35), or, where it changes a lay, by a word of either slot, one that waits for its
result among them, of that register, its base or its borrowers. -/
def State.hazard (s : State) (h : Here) (i : Instr) : Bool :=
  let own := (s.pendingDests h true).flatMap (fun r => r :: (h.w.reg r).borrowers)
  let other := s.pendingDests h false ++ s.waitDests h.g.core h.ctx h.wv
  if own.isEmpty && other.isEmpty then false
  else
    let relaid := (h.w.layChanges h.k i).flatMap h.w.near
    (namedOf i ++ relaid).any own.contains || relaid.any other.contains

/-! ## Who may issue (R238, R247, R301, R336, R414, R419) -/

/-- A wave of this halt state issues words. -/
def Halt.issues : Halt → Bool
  | .running | .coming | .handler => true
  | .skid words clocks => decide (words < 16) && decide (clocks < 48)
  | .stopped | .trapped _ _ | .debug _ _ => false

/-- A slot that waits for nothing, whose word tries again, or that has a cause to raise. -/
def PathSlot.tries (p : PathSlot) : Bool := p.live && (p.wait == none || p.wait == some .stall || p.toRaise.isSome)

/-- A word that may have to wait where it stands: for earlier accesses, room, a batch, a copy, a bin (R155, R188, R192, R212, R213, R242,
R247, R256, R258). -/
def mayStall : Instr → Bool
  | .ld _ _ _ _ _ | .st _ _ _ _ _ | .lds _ _ _ _ _ | .sts _ _ _ _ _ | .ldu _ _ _ _ _ _ | .stu _ _ _ _ _ _ | .ld2s _ _ _ _ _ _
  | .atom _ _ _ _ _ _ | .red _ _ _ _ _ | .cas _ _ _ _ _ _ | .mscmd _ _ _ _ | .fence _ _ _ | .exit _ | .spawn _ _ _ _
  | .barSync _ _ _ _ _ _ | .barArr _ _ _ | .barWait _ _ _ | .barExp _ _ _ | .bartx _ _ _ _ | .cpyLin _ _ _ _ _ _ _ | .cpyTld _ _ _ _ _
  | .cpyTst _ _ _ _ _ | .cpyTred _ _ _ _ _ | .cpymc _ _ _ _ _ _ _ | .publ _ _ | .cpywt _ _ | .coll _ _ _ | .collwt _ _
  | .tld _ _ _ _ _ _ _ _ | .mma _ _ _ _ _ _ | .mmas _ _ _ _ _ _ _ | .mmag _ _ _ _ _ _ _ _ | .aclr _ _ _ | .adrain _ _ _ _ _ _
  | .ard _ _ _ _ _ _ | .mfence _ _ | .mwait _ _ | .mwaitAll _ | .achk _ _ _ _ | .genbump _ _ _ => true
  | _ => false

/-- What a word that may have to wait would do now. -/
def attemptOf (i : Instr) (s : State) : Host.Outcome State Fault Refusal :=
  match i with
  | .ld g vd va m off => execLd g vd va m off s
  | .st g vd va m off => execSt g vd va m off s
  | .lds g vd va m off => execLds g vd va m off s
  | .sts g vd va m off => execSts g vd va m off s
  | .ldu g vd va vb m off => execLdu g vd va vb m off s
  | .stu g vd va vb m off => execStu g vd va vb m off s
  | .ld2s g vd va vb m off => execLd2s g vd va vb m off s
  | .atom g vd va vb a off => execAtom g vd va vb a off s
  | .red g va vb a off => execRed g va vb a off s
  | .cas g vd va vb a off => execCas g vd va vb a off s
  | .mscmd g vd va off => execMscmd g vd va off s
  | .fence g o c => execFence g o c s
  | .exit g => execExit g s
  | .spawn g va vb vc => execSpawn g va vb vc s
  | .barSync g vd va l ix f => execBarSync g vd va l ix f s
  | .barArr g l ix => execBarArr g l ix s
  | .barWait g l ix => execBarWait g l ix s
  | .barExp g va ix => execBarExp g va ix s
  | .bartx g va a ix => execBartx g va a ix s
  | .cpyLin g vd va vb m ss ds => execCpyLin g vd va vb m ss ds s
  | .cpyTld g vd va q m => execCpyTld g vd va q m s
  | .cpyTst g vd va q m => execCpyTst g vd va q m s
  | .cpyTred g vd va q m => execCpyTred g vd va q m s
  | .cpymc g vd va vb vc c o => execCpymc g vd va vb vc c o s
  | .publ g va => execPubl g va s
  | .cpywt g c => execCpywt g c s
  | .coll g va t => execColl g va t s
  | .collwt g t => execCollwt g t s
  | .tld g vd va vb vc w nk nn => execTld g vd va vb vc w nk nn s
  | .mma g vd va vb vc t => execMma g vd va vb vc t s
  | .mmas g va vb vc t n k => execMmas g va vb vc t n k s
  | .mmag g vd va vb vc t n k => execMmag g vd va vb vc t n k s
  | .aclr g vc t => execAclr g vc t s
  | .adrain g va q vc t a => execAdrain g va q vc t a s
  | .ard g vd va vc r t => execArd g vd va vc r t s
  | .mfence g vd => execMfence g vd s
  | .mwait g va => execMwait g va s
  | .mwaitAll g => execMwaitAll g s
  | .achk g vd vc t => execAchk g vd vc t s
  | .genbump g vd va => execGenbump g vd va s
  | _ => .next s

/-- The slot stands at a word that has not issued: it waits where it is. -/
def State.stallsAt (s : State) (r : SlotRef) : Bool :=
  (s.slotAt r).any (fun h => (h.w.slots[h.k]).wait == some .stall)

/-- The slot's word would only wait (R247). -/
def State.waitsAt (s : State) (h : Here) (i : Instr) : Bool :=
  mayStall i && (match attemptOf i { s with cur := some h.ref } with
    | .next t => t.stallsAt h.ref
    | .fault _ => false
    | .refused _ => false)

/-- The core issues words. -/
def State.coreRuns (s : State) (c : Nat) : Bool :=
  s.coreUp c && (s.core c).stopLeft == 0

/-- The group issues words: its gang is placed, and no stop holds its waves, unless a halt comes first. -/
def State.groupRuns (s : State) (g : Group) : Bool :=
  (s.gangOf g).any (fun x => x.ready) && (!g.stopping || g.waves.any (fun w => w.halt.isStopping || w.halt.isTrapped)) &&
  (s.part g.part).pstat == 0

/-- A register bank that holds registers of the wave is under test (R416). -/
def State.bankTested (s : State) (h : Here) : Bool :=
  s.tests.any (fun t => t.unit.core == h.g.core && t.unit.cls == 0 && h.w.inBank h.wv t.unit.index.toNat)

/-- A slot of the wave waits for an STEST: the wave waits (R229). -/
def Wave.inTest (w : Wave) : Bool :=
  w.slots.toList.any (fun p => p.live && (match p.wait with
    | some (.test _) => true
    | _ => false))

/-- The slot may issue its next word. -/
def State.mayIssue (s : State) (h : Here) : Bool :=
  s.coreRuns h.g.core && !s.bankTested h && s.groupRuns h.g && h.w.halt.issues && !h.w.inTest && (h.w.slots[h.k]).tries

/-- A live slot of a wave. -/
def slotsOf (ctx : Nat) (g : Group) : List Here :=
  g.waves.zipIdx.flatMap (fun (w, i) => ([0, 1] : List (Fin 2)).filterMap (fun k => if w.slots[k].live then some ⟨ctx, g, i, w, k⟩ else none))

/-- The candidates of a core. -/
def State.candidates (s : State) (c : Nat) : List Here :=
  ((s.onCore c).flatMap (fun p => slotsOf p.1 p.2)).filter s.mayIssue

/-- A word of a VALU, or of both. -/
def IssuePort.vector : IssuePort → Bool
  | .valu | .pair => true
  | .lsu | .ube => false

/-- A word for a VALU, and the partition's current reservation has too few passes left for it (R252). -/
def State.unpowered (s : State) (h : Here) (i : Instr) : Bool :=
  (h.w.port h.k i).vector && decide (vget (s.core h.g.core).passes (h.wv % 4) 0 < passesOf i)

/-- The port of a slot's next word: one that does not decode, that faults in its decode checks, or whose fetch faults, goes to the uniform
port, as does a cause that has still to be raised. -/
def Here.portFor (h : Here) (s : State) (x : Option Instr) : IssuePort :=
  match x with
  | none => .ube
  | some i => if (s.decodeCheck h i).isSome then .ube else h.w.port h.k i

/-- The word a candidate would issue is ready (R247): its port, the ports of the clock apart. One with a decode fault is ready as soon as it is
decoded. -/
def State.readyPort (s : State) (h : Here) : Option IssuePort :=
  match s.peek h with
  | none => some .ube
  | some i =>
    if (s.decodeCheck h i).isSome then some .ube
    else if s.hazard h i || s.unpowered h i || s.waitsAt h i then none
    else some (h.w.port h.k i)

/-- The slot may issue and its word is ready. -/
def State.ready (s : State) (h : Here) : Bool := s.mayIssue h && (s.readyPort h).isSome

/-- A candidate has been ready without issuing for 64 core clocks. -/
def Here.starved (h : Here) : Bool := decide (64 ≤ (h.w.slots[h.k]).starved)

/-- It ranks as younger than every other: it has issued YIELD (R152). -/
def Here.last (h : Here) : Bool := (h.w.slots[h.k]).yielded

/-- The order of candidates (R248): starved first, the longest-starved before; then age, after a YIELD last of all; then wave and slot. The spec
does not say which number a wave's slot has: it is WAVE here, and of groups placed in one clock the one of the lower context comes first
(DESIGN CHOICE, log entry 91). -/
def Here.before (a b : Here) : Bool :=
  if a.starved != b.starved then a.starved
  else if a.starved && (a.w.slots[a.k]).starved != (b.w.slots[b.k]).starved then decide ((b.w.slots[b.k]).starved < (a.w.slots[a.k]).starved)
  else if a.last != b.last then b.last
  else if a.w.age ≠ b.w.age then decide (a.w.age < b.w.age)
  else if a.wv ≠ b.wv then decide (a.wv < b.wv)
  else if a.ctx ≠ b.ctx then decide (a.ctx < b.ctx)
  else decide (a.k < b.k)

/-- A candidate in its place. -/
def placeIn_ (x : Here) : List Here → List Here
  | [] => [x]
  | y :: ys => if x.before y then x :: y :: ys else y :: placeIn_ x ys

/-- Candidates by priority. -/
def byPriority (hs : List Here) : List Here := hs.foldr placeIn_ []

/-! ## The core clock (R5, R227, R236, R248, R251, R293) -/

/-- One clock of a wave: SLEEP counts run, and the clocks since a halt. -/
def Wave.tick (w : Wave) : Wave :=
  let one (p : PathSlot) : PathSlot := match p.wait with
    | some (.sleep n) => { p with wait := some (.sleep (n - 1)), rest := p.rest - 1 }
    | _ => { p with rest := p.rest - 1 }
  { w with
    slots := w.slots.map one
    halt := match w.halt with
      | .skid words clocks => .skid words (clocks + 1)
      | x => x }

/-- A ready slot that has not issued counts the clock; any other starts anew. -/
def Wave.starve (w : Wave) (ready : Fin 2 → Bool) : Wave :=
  { w with slots := Vector.ofFn (fun k => { w.slots[k] with starved := if ready k then (w.slots[k]).starved + 1 else 0 }) }

/-- Slots that were ready and have not issued in a clock. -/
def State.starve (s : State) (c : Nat) (mine : Nat → Bool) (waiting : List Here) : State :=
  { s with groups := s.groups.map (fun p =>
      if p.2.core = c then
        (p.1, { p.2 with waves := p.2.waves.zipIdx.map (fun (w, i) =>
          if mine i then w.starve (fun k => waiting.any (fun h => h.ctx == p.1 && h.wv == i && h.k == k)) else w) })
      else p) }

/-- A core as a strike may restore it (R306). -/
def State.snapshot_ (s : State) (c : Nat) : Snapshot := ⟨c, (s.core c).clock, s.core c, s.onCore c⟩

/-- Snapshots of the last 40 core clocks (R306). -/
def keepRecent (c : Nat) (now : Nat) (hs : List Snapshot) : List Snapshot :=
  hs.filter (fun x => x.coreNo != c || decide (now ≤ x.clock.toNat + Config.strikeWindow))

/-- 840ths of a cluster clock that a core clock lasts at the core's ratio (R6, R251). -/
def Core.period (c : Core) : Nat := 840 * 8 / max 1 c.ratio.toNat

/-- A core's clock counts, beside its cluster's: `elapsed` holds where it ends, in 840ths of a cluster clock; a core that has stood still while the
cluster's clock ran joins it (R6). -/
def Core.count (c : Core) (cluster : Nat) : Core :=
  let from_ := if c.elapsed + 2 * c.period ≤ cluster * 840 then cluster * 840 - c.period else c.elapsed
  { c with
    clock := c.clock + 1
    elapsed := from_ + c.period
    turns := []
    issued := []
    bins := c.bins.map (fun b => if b.launching then b else { b with timer := b.timer + 1 }) }

/-- A group in a core clock that ends: its waves count it, and events of the next clock are new ones for OVFL (R100). -/
def Group.tick (g : Group) : Group := { g with waves := g.waves.map Wave.tick, ovflNow := 0 }

/-- SLEEP ends for a wave that a halt reaches (R227). -/
def Wave.wake (w : Wave) : Wave :=
  let one (k : Fin 2) (w : Wave) : Wave := match (w.slots[k]).wait with
    | some (.sleep _) => w.advance k
    | _ => w
  one 1 (one 0 w)

/-- No word of a wave is ready (R247, R293). -/
def State.idleWave (s : State) (ctx : Nat) (g : Group) (wv : Nat) : Bool :=
  !((slotsOf ctx g).filter (fun h => h.wv == wv)).any s.ready

/-- The halt reaches a wave: one that is waiting stops at once (R293). -/
def State.haltReaches (s : State) (ctx : Nat) (g : Group) (wv : Nat) : State :=
  if s.idleWave ctx g wv then s.modWave ctx wv (fun w => w.wake.stopSibling none 0 0)
  else s.modWave ctx wv (fun w => { w.wake with halt := .skid 0 0 })

/-- A halt has been on its way in a group for 4 core clocks (R293). -/
def Group.haltDue (g : Group) (clock : Nat) : Bool :=
  g.waves.any (fun w => match w.halt with
    | .trapped _ c => decide (c + 4 ≤ clock)
    | .running | .coming | .skid _ _ | .stopped | .handler | .debug _ _ => false)

/-- What the end of a core clock does to a wave that a halt is stopping: the halt reaches it after 4 clocks at the latest, and one that has issued
nothing in the clock, and could issue nothing, stops (R293). -/
def State.haltClock (s : State) (c : Nat) (x : Nat × Nat) : State :=
  match Map.find s.groups x.1 with
  | none => s
  | some g =>
    match g.waves[x.2]? with
    | none => s
    | some w =>
      match w.halt with
      | .coming => if g.haltDue ((s.core c).clock.toNat + 1) then s.haltReaches x.1 g x.2 else s
      | .skid words clocks =>
        if !(s.core c).issued.any (fun y => y.1.ctx == x.1 && y.1.wave == x.2) && s.idleWave x.1 g x.2 then
          s.modWave x.1 x.2 (fun w => w.stopSibling none (min words 16) (min clocks 48))
        else s
      | .running | .stopped | .trapped _ _ | .handler | .debug _ _ => s

/-- Waves of a core that a halt is stopping. -/
def State.stoppingOn (s : State) (c : Nat) : List (Nat × Nat) :=
  (s.onCore c).flatMap (fun g => (g.2.waves.zipIdx.filter (fun x => x.1.halt.isStopping)).map (fun x => (g.1, x.2)))

/-- One core clock; effects that have come of age leave the core (R307). -/
def State.tick (s : State) (c : Nat) : State :=
  let s1 := if s.deferred then { s with history := s.snapshot_ c :: keepRecent c (s.core c).clock.toNat s.history } else s
  let s2 := s1.modCore c (fun k => k.count (s.cluster (clusterOf c)).clock)
  let s3 := s2.modCluster (clusterOf c) (fun k => { k with clock := max k.clock ((s2.core c).elapsed / 840) })
  let one (p : Nat × Group) : Nat × Group := if p.2.core = c then (p.1, p.2.tick) else p
  State.landPosts { s3 with groups := s3.groups.map one } c

/-- A core clock ends: slots of partitions that have not chosen in it, and were ready all the same, have not issued (R248). -/
def State.endClock (s : State) (c : Nat) : State :=
  let s1 := (s.stoppingOn c).foldl (fun s x => s.haltClock c x) s
  let idle (p : Nat) : Bool := !(s.core c).turns.contains p
  let waiting := (s1.candidates c).filter (fun h => idle (h.wv % 4) && !(s.core c).issued.any (fun x => x.1 == h.ref) && s1.ready h)
  (s1.starve c (fun i => idle (i % 4)) waiting).tick c

/-- So many core clocks. -/
def State.ticks (s : State) (c : Nat) : Nat → State
  | 0 => s
  | n + 1 => (s.endClock c).ticks c n

/-! ## Words that give up (R302, R380, R386) -/

/-- The failed lanes of a word in one way. -/
def State.failedOps (s : State) (core id : Nat) (st : RemoteState) : List RemoteOp :=
  (s.remote.filter (fun o => o.2.core == core && o.2.word == id && o.2.cover.isNone && o.2.coll.isNone && o.2.status == st)).map Prod.snd

/-- The threads of lanes. -/
def opLanes (os : List RemoteOp) : Mask := os.foldl (fun m o => m ||| BitVec.ofNat 32 (2 ^ o.thread)) 0

/-- Why a word gives up: what the service or a leaf said, or failed lanes, in the order of the stages that find them (R291). -/
def State.failure (s : State) (core id : Nat) (m : MemWord) : Option (Cause × Mask × Addr) :=
  let lanes (c : Cause) (os : List RemoteOp) : Option (Cause × Mask × Addr) :=
    if os.isEmpty then none else some (c, opLanes os, m.addrs[Mask.lowest (opLanes os)])
  match m.gaveUp with
  | some x => some x
  | none =>
    ([.unmapped, .poisoned, .denied, .indeterminate] : List RemoteState).findSome? (fun st => lanes st.cause (s.failedOps core id st))

/-- The operations of a word that failed in the way the cause names leave the list. -/
def State.dropFailed (s : State) (core id : Nat) (c : Cause) : State :=
  { s with remote := s.remote.filter (fun o =>
      !(o.2.core == core && o.2.word == id && o.2.cover.isNone && o.2.coll.isNone && !o.2.open_ && o.2.status.cause == c)) }

/-- A word's give-up is forgotten. -/
def Core.forgive (c : Core) (id : Nat) : Core :=
  { c with log := Map.modify c.log id (fun m => { m with gaveUp := none }), reqs := Map.modify c.reqs id (fun m => { m with gaveUp := none }) }

/-- A word has an entry in the operand log, or one is free for it (R242). -/
def Core.roomFor (c : Core) (id : Nat) : Bool := (Map.find c.log id).isSome || c.logFree

/-- A word that gives up raises its cause; its log entry holds the lanes that remain. A word no live thread of which is left is
dropped. -/
def State.giveUp (s : State) (core id : Nat) : State :=
  match Map.find ((s.core core).log ++ (s.core core).reqs) id with
  | none => s
  | some m =>
    match s.failure core id m, (Map.find s.groups m.ctx).bind (fun g => g.waves[m.wave]?) with
    | some (cause, no, a), some w =>
      let s1 := if m.gaveUp.isNone then s.dropFailed core id cause else s
      let mask := no &&& w.alive
      let drop : State := s1.modCore core (fun c => if s1.awaited core id = 0 then c.dropWord id else c.forgive id)
      if mask = 0 ∨ w.ended then drop
      else if !w.takes id || !(s.core core).roomFor id then s
      else
        let k := w.slotOf m.slot
        let m1 := { m with parked := true, gaveUp := some (cause, no, a), applied := if m.gaveUp.isNone then m.cov &&& ~~~no else m.applied }
        (s1.modCore core (fun c => { c.dropWord id with log := Map.insert (c.dropWord id).log id m1 })).trapIn m.ctx m.wave k
          (m.trap cause mask (if mask = no then a else m.addrs[Mask.lowest mask])) m.pc w.slots[k].pc (some id)
    | _, _ => s

/-- The word of a slot whose give-up is due, lowest number first. -/
def State.dueGiveUp (s : State) (h : Here) : Option Nat :=
  (((s.core h.g.core).log ++ (s.core h.g.core).reqs).find? (fun e =>
    e.2.ctx == h.ctx && e.2.wave == h.wv && (s.failure h.g.core e.1 e.2).isSome && h.w.takes e.1 && (s.core h.g.core).roomFor e.1)).map Prod.fst

end Sys2Proof.Machine
end

