-- ==== Sys2Proof/Machine/CoreEvents.lean ====
section
/-! DEFINITION. The events of a core and of its cluster's arbiter (R227, R235–R237, R243, R248, R252, R270, R293–R297, R302,
R306, R307, R359, R414, R428). -/

namespace Sys2Proof.Machine

/-! ## ISSUE and STARVATION (R246, R248, R252) -/

/-- The ports of a partition that are in use in the present core clock. -/
def Core.portsUsed (c : Core) (p : Nat) : List IssuePort := (c.issued.filter (fun x => x.1.wave % 4 == p)).map Prod.snd

/-- A port is free beside those in use (R246). -/
def portFree (used : List IssuePort) (port : IssuePort) : Bool :=
  match port with
  | .ube | .lsu => !used.contains port
  | .pair => !used.any IssuePort.vector
  | .valu => !used.contains .pair && decide ((used.filter IssuePort.vector).length < 2)

/-- A slot has issued in the present core clock, or rests after its YIELD (R152, R238). -/
def State.resting (s : State) (h : Here) : Bool :=
  (s.core h.g.core).issued.any (fun x => x.1 == h.ref) || decide ((h.w.slots[h.k]).rest ≠ 0)

/-- The candidates of a partition that are ready for one of its free ports, by priority, each with its word's port. -/
def State.readyOn (s : State) (c p : Nat) : List (Here × IssuePort) :=
  ((byPriority ((s.candidates c).filter (fun h => h.wv % 4 == p && !s.resting h))).filterMap (fun h =>
    (s.readyPort h).map (fun port => (h, port)))).filter (fun r => portFree ((s.core c).portsUsed p) r.2)

/-- The words a partition issues in one clock: one each on the uniform port and the LSU, and two on the VALUs, or one pair; while a pair is
starved, no single VALU word (R248). -/
def portWords (rs : List (Here × IssuePort)) : List (Here × IssuePort) :=
  let first (p : IssuePort) : List (Here × IssuePort) := (rs.filter (fun r => r.2 == p)).take 1
  let valus := rs.filter (fun r => r.2.vector)
  first .ube ++ first .lsu ++
  (match valus.find? (fun r => r.2 == .pair && r.1.starved) with
   | some x => [x]
   | none =>
     match valus with
     | [] => []
     | a :: rest => if a.2 = .pair then [a] else a :: (rest.filter (fun r => r.2 == .valu)).take 1)

/-- A partition that has at most 64 passes left has a request under way (R252). -/
def State.askPasses (s : State) (c p : Nat) : State :=
  if vget (s.core c).passes p 0 ≤ 64 ∧ !(s.cluster (clusterOf c)).waiting.any (fun r => r.cls == .vector && r.core == c && r.part == p) then
    s.ask .vector c p 40
  else s

/-- ISSUE (R248): one clock of a partition; a second one of the same partition is in the next core clock. The words it chooses come next, in
the order of the ports. -/
def execIssue (core part : Nat) (s : State) : Host.Outcome State Fault Refusal :=
  s.event (s.coreRuns core && decide (part < 4) && decide (core < Config.cores))
    (let s0 := ((if (s.core core).turns.contains part then s.endClock core else s).modCore core (fun c => { c with turns := part :: c.turns })).askPasses
       core part
     let rs := s0.readyOn core part
     let chosen := portWords rs
     let left := (rs.filter (fun r => !chosen.contains r)).map Prod.fst
     let s1 := s0.starve core (fun i => i % 4 == part) left
     { s1 with agenda := chosen.map (fun r => Move.word r.1.ref) ++ s1.agenda })

/-- A single VALU word that may not issue while a pair word of its partition is starved (R248). -/
def State.behindPair (s : State) (h : Here) : Bool :=
  match (s.candidates h.g.core).filter (fun x => x.wv % 4 == h.wv % 4 && x.starved && x.ref != h.ref) with
  | [] => false
  | xs => h.portFor s (s.peek h) == .valu && xs.any (fun x => s.readyPort x == some .pair)

/-- STARVATION (R248): a starved candidate is its partition's first choice. -/
def execStarvation (slot : SlotRef) (s : State) : Host.Outcome State Fault Refusal :=
  match s.slotAt slot with
  | none => .next s
  | some h =>
    s.event (h.starved && s.ready h && !s.resting h && !s.behindPair h &&
        (s.candidates h.g.core).all (fun x => x.wv % 4 != h.wv % 4 || !x.starved || decide ((x.w.slots[x.k]).starved ≤ (h.w.slots[h.k]).starved)))
      { s with agenda := .word h.ref :: s.agenda }

/-- SLEEP_EXPIRY (R227). -/
def execSleepExpiry (slot : SlotRef) (s : State) : Host.Outcome State Fault Refusal :=
  match s.slotAt slot with
  | none => .next s
  | some h => s.event ((h.w.slots[h.k]).wait == some (.sleep 0)) (s.putWave h (h.w.advance h.k))

/-! ## Bins (R155, R235–R237) -/

/-- A bin of a core. -/
def Core.bin (c : Core) (i : Nat) : Option Bin := c.bins[i]?

/-- BIN_TIMER_EXPIRY (R236). -/
def execBinTimerExpiry (core bin : Nat) (s : State) : Host.Outcome State Fault Refusal :=
  match (s.core core).bin bin with
  | none => .next s
  | some b =>
    s.event (!b.launching && (Map.find s.groups b.ctx).any (fun g => decide (g.binInterval ≤ b.timer)))
      (s.modCore core (fun c => { c with bins := c.bins.modify bin (fun b => b.fill c.nextLaunch c.clock.toNat) }))

/-- The slot a bin's wave takes: the lowest one of the spawner's role that has ended. -/
def State.binSlot (s : State) (b : Bin) : Option (Nat × Group × Wave) :=
  match Map.find s.groups b.ctx with
  | none => none
  | some g =>
    match g.waves[b.wave]? with
    | none => none
    | some sp =>
      ((g.waves.take g.waveSlots).zipIdx.find? (fun (w, _) => w.ended && w.role == sp.role)).map (fun (w, i) => (i, g, w))

/-- A bin ahead of another in launch order waits for the same role of the same group (R237). -/
def State.binAhead (s : State) (core : Nat) (b : Bin) : Bool :=
  match Map.find s.groups b.ctx with
  | none => false
  | some g =>
    let role (wv : Nat) : Option (Fin 4) := (g.waves[wv]?).map (fun w => w.role)
    (s.core core).bins.any (fun x => x.launching && decide (x.order < b.order) && x.ctx == b.ctx && role x.wave == role b.wave)

/-- The wave a bin launches: its threads in append order, v0 and v1 their arguments (R237). -/
def binWave (g : Group) (b : Bin) (w : Wave) (age : Nat) : Wave :=
  let n := b.threads.length
  let x := waveAt g.image w.role.val w.regCount n true w.origin age g.born
  let arg_ (f : Word × Word × Nat → Word) : Row := Vector.ofFn (fun t => ((b.threads[t.val]?).map f).getD 0)
  { x with
    regs := (x.regs.setIfInBounds 0 { vget x.regs 0 Register.launch with elems := arg_ (fun a => a.1) }).setIfInBounds 1
      { vget x.regs 1 Register.launch with elems := arg_ (fun a => a.2.1) }
    slots := x.slots.set (0 : Fin 2) { x.slots[(0 : Fin 2)] with pc := b.key }
    origins := b.threads.map (fun a => a.2.2) }

/-- Work of a wave that is still under way. -/
def Core.holds (c : Core) (ctx wv : Nat) : Bool :=
  (c.log ++ c.reqs).any (fun e => e.2.ctx == ctx && e.2.wave == wv) || c.copies.any (fun x => x.ctx == ctx && x.wave == wv) ||
  c.queue.any (fun e => e.ctx == ctx && e.wave == wv) || c.buffers.toList.any (fun b => b.any (fun b => b.ctx == ctx && b.wave == wv))

/-- It goes under another number of the group's waves. -/
def Core.renumber (c : Core) (ctx wv n : Nat) : Core :=
  let word (e : Nat × MemWord) : Nat × MemWord := if e.2.ctx = ctx ∧ e.2.wave = wv then (e.1, { e.2 with wave := n }) else e
  { c with
    log := c.log.map word
    reqs := c.reqs.map word
    copies := c.copies.map (fun x => if x.ctx = ctx ∧ x.wave = wv then { x with wave := n } else x)
    queue := c.queue.map (fun e => if e.ctx = ctx ∧ e.wave = wv then { e with wave := n } else e)
    buffers := c.buffers.map (fun b => b.map (fun b => if b.ctx = ctx ∧ b.wave = wv then { b with wave := n } else b)) }

/-- The wave has supplied threads that wait in a bin or have not ended: they arrive at its barriers (R177). -/
def State.supplies (s : State) (core ctx uid : Nat) : Bool :=
  (s.core core).bins.any (fun b => b.ctx == ctx && b.threads.any (fun t => t.2.2 == uid)) ||
  (Map.find s.groups ctx).any (fun g => g.waves.any (fun w => w.spawned && !w.ended && w.origins.contains uid))

/-- An ended wave gives its slot up while work of it is under way, or while threads it has supplied name its barriers: it stands behind
the group's waves (R177, R236, R237; log entry 77). -/
def State.vacate (s : State) (core ctx wv : Nat) (w : Wave) : State :=
  let here := (s.core core).holds ctx wv || s.supplies core ctx w.uid || s.colls.any (fun x => x.2.ctx == ctx && x.2.wave == wv) ||
    s.remote.any (fun o => o.2.ctx == ctx && o.2.wave == wv)
  if !here then s
  else
    let n := ((Map.find s.groups ctx).map (fun g => g.waves.length)).getD 0
    { (s.modGroup ctx (fun g => { g with waves := g.waves ++ [{ w with spawned := true }] })).modCore core (fun c => c.renumber ctx wv n) with
      colls := s.colls.map (fun x => if x.2.ctx = ctx ∧ x.2.wave = wv then (x.1, { x.2 with wave := n }) else x)
      remote := s.remote.map (fun o => if o.2.ctx = ctx ∧ o.2.wave = wv then (o.1, { o.2 with wave := n }) else o) }

/-- A bin may launch its wave: it was filled or its timer expired in an earlier core clock, no bin ahead of it waits for the same role, and
its group issues words (R236, R237, R295). -/
def State.binReady (s : State) (core : Nat) (b : Bin) (g : Group) : Bool :=
  b.launching && decide (b.since < (s.core core).clock.toNat) && !s.binAhead core b && s.groupRuns g && s.coreRuns core &&
  g.waves.all (fun w => w.halt == .running)

/-- BIN_LAUNCH (R236, R237). -/
def execBinLaunch (core bin : Nat) (s : State) : Host.Outcome State Fault Refusal :=
  match (s.core core).bin bin with
  | none => .next s
  | some b =>
    match s.binSlot b with
    | none => .next s
    | some (i, g, w) =>
      s.event (s.binReady core b g)
        (((s.vacate core b.ctx i w).modGroup b.ctx (fun x =>
            { x.setWave i (binWave g b w (s.core core).clock.toNat) with born := x.born + 1 })).modCore core
          (fun c => { c with bins := c.bins.eraseIdx bin }))

/-! ## Memory requests (R243, R270, R302, R307, R359) -/

/-- A word of the operand log whose page waits have ended: it is to be performed (R258, R360). -/
def State.resolved (s : State) (m : MemWord) : Bool :=
  m.gaveUp.isNone && (!m.parked || (!m.tokens.isEmpty && m.tokens.all (fun t => (Map.find s.faultRecs t).isNone)))

/-- A request, or a word of the operand log whose page waits have ended, has still to be performed. -/
def State.due (s : State) (core id : Nat) (m : MemWord) : Bool :=
  !m.performed && (if (Map.find (s.core core).reqs id).isSome then s.awaited core id == 0 else s.resolved m)

/-- MEMORY_REQUEST_ARRIVAL (R270): the request is translated under the current generation and performed. -/
def execMemoryRequestArrival (core req : Nat) (s : State) : Host.Outcome State Fault Refusal :=
  match Map.find ((s.core core).reqs ++ (s.core core).log) req with
  | none => .next s
  | some m =>
    match Map.find s.groups m.ctx with
    | none => .next s
    | some g => s.event (s.due core req m && s.mayPerform core req g m && s.coreUp core) (s.replay core req)

/-- A request whose data have arrived is complete. -/
def State.delivered (s : State) (core req : Nat) (f : State → State) : State := f (s.modCore core (fun c => c.dropWord req))

/-- LOAD_DATA_DELIVERY (R243). -/
def execLoadDataDelivery (core req : Nat) (s : State) : Host.Outcome State Fault Refusal :=
  match Map.find (s.core core).reqs req with
  | none => .next s
  | some m => s.event (m.performed && m.spec.kind != .ld2s) (s.delivered core req (fun s => s.deliver core req m none))

/-- LD2S_DELIVERY (R183). -/
def execLd2sDelivery (core req : Nat) (s : State) : Host.Outcome State Fault Refusal :=
  match Map.find (s.core core).reqs req, Map.find s.groups (((Map.find (s.core core).reqs req).map (fun m => m.ctx)).getD 0) with
  | some m, some g => s.event (m.performed && m.spec.kind == .ld2s) (s.delivered core req (fun s => s.ld2sLand g.part m m.cov))
  | _, _ => .next s

/-- EFFECT_LEAVES_CORE (R307). -/
def execEffectLeavesCore (core req : Nat) (s : State) : Host.Outcome State Fault Refusal :=
  match Map.find (s.core core).reqs req with
  | none => .next s
  | some m =>
    s.event (!m.left && decide (m.issued + Config.strikeWindow ≤ (s.core core).clock.toNat))
      (s.modCore core (fun c => { c with reqs := Map.insert c.reqs req { m with left := true } }))

/-- FAULT_RECORD (R359): a pending record of the core, under its token, is written once its queue has room. -/
def execFaultRecord (core entry : Nat) (s : State) : Host.Outcome State Fault Refusal :=
  s.event ((Map.find s.faultRecs entry).any (fun r => r.core == core && r.index.isNone)) (s.writeRecord entry)

/-- PARKED_WORD_GIVE_UP (R302). -/
def execParkedWordGiveUp (core entry : Nat) (s : State) : Host.Outcome State Fault Refusal := (s.giveUp core entry).outcome

/-! ## The halt (R293–R297) -/

/-- HALT_ARRIVAL (R293): at most 4 core clocks after the trap (`State.haltClock`). -/
def execHaltArrival (ctx wave : Nat) (s : State) : Host.Outcome State Fault Refusal :=
  match Map.find s.groups ctx with
  | none => .next s
  | some g =>
    match g.waves[wave]? with
    | none => .next s
    | some w =>
      s.event (w.halt == .coming) (s.haltReaches ctx g wave)

/-- SIBLING_STOP (R293). -/
def execSiblingStop (ctx wave : Nat) (s : State) : Host.Outcome State Fault Refusal :=
  match Map.find s.groups ctx with
  | none => .next s
  | some g =>
    match g.waves[wave]? with
    | none => .next s
    | some w =>
      match w.halt with
      | .skid words clocks =>
        s.event (decide (16 ≤ words) || decide (48 ≤ clocks) || s.idleWave ctx g wave)
          (s.modWave ctx wave (fun w => w.stopSibling none (min words 16) (min clocks 48)))
      | .running | .coming | .stopped | .trapped _ _ | .handler | .debug _ _ => .next s

/-- HANDLER_ENTRY (R297). -/
def execHandlerEntry (ctx : Nat) (s : State) : Host.Outcome State Fault Refusal :=
  match Map.find s.groups ctx with
  | none => .next s
  | some g => s.event (g.waves.any (fun w => w.halt.isTrapped) && !g.halting) (s.enterHandler ctx)

/-! ## Strikes (R306–R308, R413, R414, R420) -/

/-- The self-test units of a core. -/
def coreUnits (core : Nat) : List UnitRef :=
  ((List.range 32).map (fun i => ⟨core, 0, BitVec.ofNat 12 i⟩)) ++ ((List.range 16).map (fun i => ⟨core, 1, BitVec.ofNat 12 i⟩)) ++
  ((List.range 33).map (fun i => ⟨core, 2, BitVec.ofNat 12 i⟩))

/-- A core's state as it was, except for its clock, its strikes and its stop (R306, R414). What has left the core stays done; a COLL issued since
has not left it (R307). -/
def State.restoreCore (s : State) (x : Snapshot) : State :=
  let now := s.core x.coreNo
  { (s.withSnapshot x).modCore x.coreNo (fun c =>
      { c with
        strikes := now.strikes
        stopLeft := now.stopLeft
        elapsed := now.elapsed
        posts := c.posts.filter (fun p => decide (now.clock.toNat < p.1 + Config.strikeWindow)) }) with
    colls := s.colls.filter (fun c => c.2.core != x.coreNo || c.2.started || decide (c.2.issued ≤ x.clock.toNat)) }

/-- Operations that only discarded words sent leave the list. -/
def State.dropOrphans (s : State) (core : Nat) : State :=
  { s with remote := s.remote.filter (fun o => !(o.2.core == core && o.2.cover.isNone && o.2.coll.isNone &&
      (Map.find ((s.core core).log ++ (s.core core).reqs) o.2.word).isNone)) }

/-- The cluster's in-field test is over: pre-emptions asked for during it begin now, and its partition's distributor may place work again
(R388, R419, R420). -/
def State.endTests (s : State) (k : Nat) : State :=
  let begun (x : Stop) : Stop := match (s.cluster k).fieldTest with
    | .run _ _ => { x with since := s.now }
    | .none | .due _ => x
  let s1 : State := { s.modCluster k (fun c => { c with fieldTest := .none, lastTest := s.now }) with
    groups := s.groups.map (fun g => (g.1, if clusterOf g.2.core = k then { g.2 with stop := g.2.stop.map begun } else g.2)) }
  match s1.partOfCore (k * Config.coresPerCluster) with
  | some p => s1.wake p
  | none => s1

/-- ROLLBACK_RESUME (R414): 64 core clocks after the report, words issue again. -/
def execRollbackResume (core : Nat) (s : State) : Host.Outcome State Fault Refusal :=
  s.event (decide (0 < (s.core core).stopLeft))
    ((s.ticks core (s.core core).stopLeft).modCore core (fun c => { c with stopLeft := 0 }))

/-! ## The arbiter (R428, R432) -/

/-- RESERVATION_GRANT (R428): the first request in rank, if it fits. -/
def execReservationGrant (cluster : Nat) (s : State) : Host.Outcome State Fault Refusal :=
  match s.nextGrant cluster with
  | none => .next s
  | some r => .next (s.grant cluster r)

/-- CHARGE_EXPIRY (R428): the oldest charge has been in the window for 1,024 cluster clocks. -/
def execChargeExpiry (cluster : Nat) (s : State) : Host.Outcome State Fault Refusal :=
  match (s.cluster cluster).charges with
  | [] => .next s
  | x :: _ =>
    .next (s.modCluster cluster (fun c =>
      let clock := max c.clock (x.1 + 1024)
      { c with clock := clock, charges := c.charges.filter (fun y => decide (clock < y.1 + 1024)) }))

/-- ARBITER_AGING (R428): the request that has waited longest ranks one class higher. -/
def execArbiterAging (cluster : Nat) (s : State) : Host.Outcome State Fault Refusal :=
  match (s.cluster cluster).waiting.find? (fun r => decide (r.up < r.cls.rank)) with
  | none => .next s
  | some r =>
    .next (s.modCluster cluster (fun c => { c with
      clock := max c.clock (r.since + 256 * (r.up + 1))
      waiting := c.waiting.map (fun x => if x = r then { x with up := x.up + 1 } else x) }))

end Sys2Proof.Machine
end

