-- ==== Sys2Proof/Machine/HostRegs.lean ====
section
/-! DEFINITION. What the host and the operator write: the partition page, the management registers, BAR 4; the replies of the
fault service (R324, R360, R362, R368, R371, R376, R425, R432). -/

namespace Sys2Proof.Machine

/-! ## What a TDI takes from its host (R371) -/

/-- A TLP to the TDI is completed with Unsupported Request: one without the trusted mark in RUN. -/
def Partition.turnsAway (p : Partition) (trusted : Bool) : Bool := p.tdi == .run && !trusted

/-- A host transaction to a partition's TDI: turned away with Unsupported Request, ignored, or taken; the host link is enabled in a running device
alone (R429). -/
def State.hostTouch (s : State) (part : Nat) (trusted takes : Bool) (f : State) : Host.Outcome State Fault Refusal :=
  if s.devState ≠ .running then .next s
  else if (s.part part).turnsAway trusted then .next (s.send .unsupported)
  else s.event takes f

/-! ## DOORBELL (R324) -/

/-- The RCB address that NODE names: bits [56:7]. -/
def bellNode (value : BitVec 64) : Nat := value.toNat % 2 ^ 50 * 128

/-- A bell merged with the one its node already has. -/
def Partition.ring (p : Partition) (node now : Nat) : Partition :=
  { p with bells := if p.bells.any (fun b => b.1 == node) then p.bells else p.bells ++ [(node, now)], idle := false, pstat := 0 }

/-- The partition takes doorbells: it is not in reset or error, nor its TDI in CONFIG_LOCKED or ERROR. -/
def Partition.hears (p : Partition) : Bool := (p.tdi == .unlocked || p.tdi == .run) && (p.pstat == 0 || p.pstat == 2)

/-- A doorbell taken: the node rings, or the cast record takes the bad value. -/
def State.bell (s : State) (part : Nat) (value : BitVec 64) : State :=
  if (s.path part (bellNode value)).isSome then s.modPart part (fun p => p.ring (bellNode value) s.now)
  else s.castPart part { cls := 0x0A, cause := 0x8B, addr := value }

/-- DOORBELL (R324, R371). -/
def execDoorbell (part : BitVec 5) (value : BitVec 64) (trusted : Bool) (s : State) : Host.Outcome State Fault Refusal :=
  s.hostTouch part.toNat trusted ((s.part part.toNat).hears && value.toNat / 2 ^ 50 == 0) (s.bell part.toNat value)

/-! ## GENREQ (R362) -/

/-- GENREQ (R362): a value that names no active ASID of the partition is ignored. -/
def execGenreq (part : BitVec 5) (value : BitVec 64) (trusted : Bool) (s : State) : Host.Outcome State Fault Refusal :=
  s.hostTouch part.toNat trusted ((s.part part.toNat).pstat != 1 && s.asidActive part.toNat (value.toNat % 2 ^ 16))
    (s.startBump part.toNat (value.toNat % 2 ^ 16) none none)

/-! ## FAULTDB (R360) -/

/-- The cause of a STATUS that resolves nothing. -/
def statusCause (status : Nat) : Cause := if status = 3 then .permission else if status = 4 then .translationPoison else .pageFault

/-- STATUS of a record in its fault queue. -/
def State.recordStatus (s : State) (r : FaultRec) (index : Nat) : Nat :=
  let asd := s.asd r.part r.asid.toNat
  s.physNat r.part (s.physNat r.part (asd + 24) 8 + 64 + 32 * (index % 2 ^ (s.physNat r.part (asd + 36) 1 % 16))) 1

/-- The address at which a slot waits for a fault record, if it does. -/
def PathSlot.awaitsRecord (p : PathSlot) (token : Nat) : Option Addr :=
  match p.wait with
  | some (.fetch t a) => if t = token then some a else none
  | _ => none

/-- A slot whose wait for a record is over issues its word again. -/
def Wave.recordOver (token : Nat) (w : Wave) : Wave :=
  w.everySlot (fun w => { w with slots := w.slots.map (fun p => if (p.awaitsRecord token).isSome then { p with wait := none } else p) })

/-- A saved group's engines no longer wait for a record. -/
def SavedGroup.endWaits (x : SavedGroup) (token : Nat) : SavedGroup :=
  { x with
    copies := x.copies.map (fun y => { y with token := if y.token = some token then none else y.token })
    queue := x.queue.map (fun y => { y with token := if y.token = some token then none else y.token })
    buffers := x.buffers.map (fun b => b.map (fun y => { y with token := if y.token = some token then none else y.token })) }

/-- Saved groups changed. -/
def State.modSaved (s : State) (f : SavedGroup → SavedGroup) : State :=
  { s with saved := s.saved.map (fun x => (x.1, { x.2 with groups := x.2.groups.map f })) }

/-- Every wait for a record is over. -/
def State.endWaits (s : State) (token : Nat) : State :=
  { s.modSaved (fun x => x.endWaits token) with
    groups := s.groups.map (fun g => (g.1, { g.2 with waves := g.2.waves.map (fun w => w.recordOver token) }))
    launches := s.launches.map (fun l => (l.1, { l.2 with token := if l.2.token = some token then none else l.2.token }))
    colls := s.colls.map (fun c => (c.1, { c.2 with token := if c.2.token = some token then none else c.2.token })) }

/-- The engines of a core no longer wait for a record. -/
def Core.endWaits (c : Core) (token : Nat) : Core :=
  { c with
    copies := c.copies.map (fun x => { x with token := if x.token = some token then none else x.token })
    queue := c.queue.map (fun x => { x with token := if x.token = some token then none else x.token })
    buffers := c.buffers.map (fun b => b.map (fun x => { x with token := if x.token = some token then none else x.token })) }

/-- The words of a core that a record holds. -/
def State.wordsOf_ (s : State) (core token : Nat) : List (Nat × MemWord) :=
  (s.core core).log.filter (fun e => e.2.tokens.contains token && e.2.gaveUp.isNone)

/-- Engines and COLLs of a core that no longer wait go on at once, unless their work stays queued. -/
def State.workEngines (s : State) (core : Nat) (copies : List CopyCmd) (colls : List Nat) : State :=
  if s.deferred then s
  else
    colls.foldl (fun s i => s.braidTry i)
      ((copies.foldl (fun s c => s.workChannel core c.ctx c.wave c.ch (s.onChannel core c.ctx c.wave c.ch).length) s).runMatrix core)

/-- STATUS 1: everything that a record held walks again (R360), on a paused cluster once the pause has ended (R420). -/
def State.retryRecord (s : State) (core token : Nat) : State :=
  let words := s.wordsOf_ core token
  let copies := (s.core core).copies.filter (fun c => c.token == some token)
  let colls := (s.colls.filter (fun c => c.2.token == some token)).map Prod.fst
  let s1 := (s.endWaits token).modCore core (fun c => c.endWaits token)
  if s.coreUp core then (words.foldl (fun s e => s.replay core e.1) s1).workEngines core copies colls
  else words.foldl (fun s e => s.waitsInLog core e.1) s1

/-- A parked word gives up for the threads that touch a record's page. -/
def MemWord.giveUpPage (m : MemWord) (token : Nat) (r : FaultRec) (cause : Cause) : MemWord :=
  if m.tokens.contains token && m.gaveUp.isNone then
    let x := m.offenders (m.cov &&& ~~~m.applied) (fun va => va / 65536 == r.va.toNat % 2 ^ 57 / 65536)
    { m with tokens := [], gaveUp := some (cause, x.1, x.2) }
  else m

/-- A slot whose wait for a record ends in a cause has it to raise. -/
def PathSlot.recordFails (token : Nat) (cause : Cause) (p : PathSlot) : PathSlot :=
  match p.awaitsRecord token with
  | none => p
  | some a => { p with wait := some (.gaveUp cause a) }

/-- The slots of a wave that a halt has stopped or set aside and whose wait for a record ends in a cause. -/
def Wave.recordFails (token : Nat) (cause : Cause) (w : Wave) : Wave :=
  { w with
    slots := if w.halt.acts then w.slots else w.slots.map (PathSlot.recordFails token cause)
    block := w.block.map (fun b => { b with slots := b.slots.map (PathSlot.recordFails token cause) }) }

/-- The slots of a wave whose fetch, or whose word's read, gives up raise the cause precisely: at once, or, in a wave that has stopped, when it
goes on (R295, R360). -/
def State.raiseRecord (s : State) (token : Nat) (cause : Cause) (ctx wv : Nat) : State :=
  ([0, 1] : List (Fin 2)).foldl (fun s k =>
    match (Map.find s.groups ctx).bind (fun g => g.waves[wv]?) with
    | none => s
    | some w =>
      match (w.slots[k]).awaitsRecord token with
      | none => s
      | some a =>
        if (w.slots[k]).live && w.halt.acts then
          let pc := w.slots[k].pc
          (s.modWave ctx wv (fun w => w.setSlot k (fun p => { p with wait := some (.gaveUp cause a) }))).trapIn ctx wv k
            { Trap.of cause (w.exec k) with addr := a } pc pc none
        else s) (s.modWave ctx wv (fun w => w.recordFails token cause))

/-- The engines' work that a record held faults, each at the address it asked for (R184, R207, R360). -/
def State.failEngines (s : State) (core token : Nat) (cause : Cause) : State :=
  let c := s.core core
  let s1 := (c.copies.filter (fun x => x.token == some token)).foldl (fun s x => s.copyFault core x cause x.va) s
  let s2 := (c.queue.filter (fun e => e.token == some token)).foldl (fun s e => s.imageFail core e cause e.va) s1
  let s3 := (List.range 2).foldl (fun s i => match vget c.buffers i none with
    | some b => if b.token = some token then (s.modCore core (fun c => c.freeBuffer i)).matFault core b.ctx b.wave b.batch b.rank cause b.va else s
    | none => s) s2
  (s.colls.filter (fun x => x.2.token == some token)).foldl (fun s x => s.collFault x.1 x.2 cause x.2.va) s3

/-- A saved group whose engines' work a record held: the work is gone, and its wave has the fault (R344, R360). -/
def SavedGroup.failEngines (x : SavedGroup) (token : Nat) (cause : Cause) : SavedGroup :=
  let on (g : Group) (wv : Nat) (f : Wave → Wave) : Group := { g with waves := g.waves.modify wv f }
  let g1 := (x.copies.filter (fun c => c.token == some token)).foldl (fun g c =>
    on g c.wave (fun w => { w with faults := w.faults ++ [⟨.channel c.ch, c.bar, cause, c.va, c.id⟩] })) x.group
  let g2 := (x.queue.filter (fun e => e.token == some token)).foldl (fun g e =>
    on g e.wave (fun w => w.batchFault ⟨.batch e.batch, none, cause, e.va, e.id⟩)) g1
  let g3 := (x.buffers.toList.filterMap (fun b => b.filter (fun d => d.token == some token))).foldl (fun g d =>
    on g d.wave (fun w => w.batchFault ⟨.batch d.batch, none, cause, d.va, d.rank⟩)) g2
  { x with
    group := g3
    copies := x.copies.filter (fun c => c.token != some token)
    queue := x.queue.filter (fun e => e.token != some token)
    buffers := x.buffers.map (fun b => b.filter (fun d => d.token != some token)) }

/-- A launch whose completion word cannot be written finishes without it (R327). -/
def State.failLaunches (s : State) (token : Nat) : State :=
  (s.launches.filter (fun l => l.2.token == some token)).foldl (fun s l =>
    (s.castPart l.2.part { cls := 0x0A, cause := 0x8A, addr := BitVec.ofNat 64 l.2.node }).finish l.1 l.2) s

/-- Any other STATUS: everything that a record held gives up with its cause (R302, R360). -/
def State.failRecord (s : State) (core token : Nat) (r : FaultRec) (cause : Cause) : State :=
  let give (l : List (Nat × MemWord)) : List (Nat × MemWord) := l.map (fun e => (e.1, e.2.giveUpPage token r cause))
  let s0 : State := s.modCore core (fun c => { c with log := give c.log })
  let s1 : State := s0.modSaved (fun y => { y.failEngines token cause with log := give y.log })
  let s2 : State := ((s1.failEngines core token cause).failLaunches token)
  let s3 := (s2.groups.flatMap (fun g => (List.range g.2.waves.length).map (fun i => (g.1, i)))).foldl (fun s x => s.raiseRecord token cause x.1 x.2) s2
  let s4 := (s3.endWaits token).modCore core (fun c => c.endWaits token)
  if s4.deferred then s4 else s4.runMatrix core

/-- The reply of the service: the device reads STATUS and acts on it. -/
def State.serviceReply (s : State) (part token : Nat) : State :=
  match Map.find s.faultRecs token with
  | none => s
  | some r =>
    match r.index with
    | none => s
    | some i =>
      if r.part ≠ part then s
      else
        let s1 := { s with faultRecs := Map.erase s.faultRecs token }
        if s.recordStatus r i = 1 then s1.retryRecord r.core token else s1.failRecord r.core token r (statusCause (s.recordStatus r i))

/-! ## Registers without a row of their own (R368, R432) -/

/-- Bits [51:6] of ASDBASE. -/
def asdBaseMask : BitVec 64 := 0x000FFFFFFFFFFFC0

/-- ASDBASE as a write leaves it: CONFIG_LOCKED and RUN ignore it. -/
def Partition.writeAsdBase (p : Partition) (v : BitVec 64) : Partition :=
  if p.tdi = .locked ∨ p.tdi = .run then p else { p with asdBase := v &&& asdBaseMask }

/-- PWRLIM_WRITE (R432). -/
def execPwrlimWrite (value : BitVec 64) (s : State) : Host.Outcome State Fault Refusal :=
  .next ((s.modCluster s.clusterSel.toNat (fun c => { c with
    pwrlim := if value.toNat % 65536 < 4096 then 4096 else value.setWidth 16 })).cast s.clusterSel.toNat { cls := 0x07, cause := 1 })

/-- TESTPOL_WRITE (R432). -/
def execTestpolWrite (value : BitVec 64) (s : State) : Host.Outcome State Fault Refusal :=
  .next (s.modCluster s.clusterSel.toNat (fun c => { c with
    grace := value.extractLsb' 16 16
    testint := if value.extractLsb' 8 8 = 0 then 1 else value.extractLsb' 8 8
    idleOnly := value.getLsbD 0 }))

/-- THAW (R425, R432). -/
def execThaw (value : BitVec 64) (s : State) : Host.Outcome State Fault Refusal :=
  s.event (value.getLsbD 0) (s.modCluster s.clusterSel.toNat (fun c => { c with frozen := false }))

/-- A management register as it reads (R432). -/
def State.mgmtRead (s : State) (offset : Nat) : BitVec 64 :=
  let c := s.cluster s.clusterSel.toNat
  let cores := (List.range Config.coresPerCluster).map (fun i => s.core (s.clusterSel.toNat * Config.coresPerCluster + i))
  match offset with
  | 0x1000 => BitVec.ofNat 64 (s.epoch.toNat * 2 ^ 32 + (if s.clusters.any (fun c => c.frozen) then 4 else 0) +
      (match s.devState with | .booting => 0 | .running => 1 | .fatal => 2 | .recovery => 3))
  | 0x1008 => s.clusterSel.setWidth 64
  | 0x1010 => c.pwrlim.setWidth 64
  | 0x1018 => BitVec.ofNat 64 (c.grace.toNat * 65536 + c.testint.toNat * 256 + (if c.idleOnly then 1 else 0))
  | 0x1020 => c.castHead
  | 0x1030 => BitVec.ofNat 64 (c.lanesRetired * 2 ^ 48 + c.banksRetired * 2 ^ 32 + (cores.map (fun k => k.spares)).sum * 65536 +
      cores.countP (fun k => k.retired) + cores.countP (fun k => k.arrayRetired))
  | _ => 0

/-- A register of a partition page as it reads (R368). -/
def State.pageRead (s : State) (part offset : Nat) : BitVec 64 :=
  match offset with
  | 0x0008 => (s.part part).asdBase
  | 0x0020 => (s.part part).pstat.setWidth 64
  | _ => 0

/-- REGISTER_WRITE (R368, R376, R432): a write of ASDBASE or CLUSTERSEL, or a read of any register of a partition page or of the management
registers; every other offset ignores writes and reads as zero. -/
def execRegisterWrite (page : RegPage) (offset : Nat) (value : Option (BitVec 64)) (trusted : Bool) (s : State) : Host.Outcome State Fault Refusal :=
  match page, value with
  | .partition p, some v => s.hostTouch p.toNat trusted (offset == 0x0008) (s.modPart p.toNat (fun x => x.writeAsdBase v))
  | .partition p, none => s.hostTouch p.toNat trusted true (s.send (.register (s.pageRead p.toNat offset)))
  | .management, some v => s.event (offset == 0x1008) { s with clusterSel := v.setWidth 5 }
  | .management, none => .next (s.send (.register (s.mgmtRead offset)))

/-! ## BAR 4 (R369, R371, R376) -/

/-- The device memory under consecutive partition physical addresses, in runs within lines, with SWZ 0 and a key. -/
def State.physRuns (s : State) (part key a n : Nat) : List (Target × Nat × Nat) :=
  ((List.range n).filter (fun i => i == 0 || (a + i) % 64 == 0)).map (fun i =>
    (.dev ((s.part part).place 0 (a + i)) key, i, min (n - i) (64 - (a + i) % 64)))

/-- The keys of the partition's lines are destroyed: its reset is under way (R373). -/
def State.keyless (s : State) (part : Nat) : Bool := (s.part part).pstat == 1

/-- A host read answered; uncorrectable lines poison it. -/
def State.hostRead (s : State) (part a n : Nat) : State :=
  let rs := s.physRuns part (s.part part).primary.toNat a n
  let bad := s.keyless part || rs.any (fun r => (s.readAt part r.1 r.2.2).2.2)
  s.send (.hostRead (if bad then [] else rs.flatMap (fun r => (s.readAt part r.1 r.2.2).2.1)) bad)

/-- A host write performed. -/
def State.hostWrite (s : State) (part a : Nat) (bs : List Byte) : State :=
  if s.keyless part then s
  else s.putAll part ((s.physRuns part (s.part part).primary.toNat a bs.length).map (fun r => ⟨r.1, ((bs.drop r.2.1).take r.2.2).map some⟩))

/-- HOST_BAR4_ACCESS (R371, R376): CONFIG_LOCKED ignores writes. -/
def execHostBar4Access (part : BitVec 5) (addr : Nat) (write : Option (List Byte)) (size : Nat) (trusted : Bool) (s : State) :
    Host.Outcome State Fault Refusal :=
  let p := part.toNat
  match write with
  | none => s.hostTouch p trusted true (if s.inSpace p addr size then s.hostRead p addr size else s.send .unsupported)
  | some bs =>
    s.hostTouch p trusted ((s.part p).tdi != .locked) (if s.inSpace p addr bs.length then s.hostWrite p addr bs else s.send .unsupported)

end Sys2Proof.Machine
end

