-- ==== Sys2Proof/Machine/Fabric.lean ====
section
/-! DEFINITION. The exactly-once fabric: the owner's ports, replies at the requester, timeouts, links (R377–R393). -/

namespace Sys2Proof.Machine

/-! ## Answers (R379, R392, R393) -/

/-- The valid peer-table entry of the target partition that names the requester: window and entry. -/
def State.entryFor (s : State) (req : FabricReq) : Option (Nat × BitVec 64) :=
  (s.part req.tpart.toNat).peers.find? (fun e => e.2.getLsbD 63 && e.2.extractLsb' 32 12 == req.pair.qdev && e.2.extractLsb' 44 5 == req.pair.qpart)

/-- The window under which the target partition knows a requester. -/
def State.windowFor (s : State) (req : FabricReq) : Nat := ((s.entryFor req).map Prod.fst).getD 0

/-- A privileged message to a device: sealed under the firmware's key, and sprayed (R392, R393). -/
def State.tell (s : State) (dev : BitVec 12) (x : Seal → Sent) : State := (s.sealed none dev.toNat).spray (x (s.seal none dev.toNat))

/-- A request answered: a reply that carries data is sealed under the key of its partition pair and uses a port; the other answers are
privileged. -/
def State.replyTo (s : State) (port : Nat) (req : FabricReq) (a : FabricAnswer) : State :=
  match a with
  | .done _ _ =>
    let w := s.windowFor req
    (s.sealed (some req.tpart.toNat) w).sendOn port (.reply port req.pair req.serial a s.epoch (s.seal (some req.tpart.toNat) w))
  | .expired | .busy | .epoch | .denied => s.tell req.pair.qdev (.reply port req.pair req.serial a s.epoch)

/-! ## The cleat (R382, R383) -/

/-- Serial S precedes T (R383). -/
def precedes (a b : Word) : Bool := decide (1 ≤ (b - a).toNat) && decide ((b - a).toNat < 2 ^ 31)

/-- What a port keeps of a requester pair. -/
def Port.pairOf (p : Port) (x : PairId) : Option PairRec := p.pairs.find? (fun r => r.pair == x)

/-- The floor of a pair rises to a serial, and entries before it retire. -/
def Port.raise (p : Port) (x : PairId) (wm : Word) : Port :=
  let up (r : PairRec) : PairRec := if r.pair = x ∧ precedes r.floor wm then { r with floor := wm } else r
  let pairs := p.pairs.map up
  { p with
    pairs := pairs
    cleat := p.cleat.filter (fun e => !pairs.any (fun r => r.pair == e.pair && precedes e.serial r.floor)) }

/-- A message of a pair is heard: a new pair's floor is its watermark. -/
def Port.hear (p : Port) (x : PairId) (wm : Word) (now : Nat) : Port :=
  match p.pairOf x with
  | none => { p with pairs := p.pairs ++ [⟨x, wm, now, none⟩] }
  | some _ => Port.raise { p with pairs := p.pairs.map (fun r => if r.pair = x then { r with lastHeard := now } else r) } x wm

/-- The entry of a lane. -/
def Port.entryOf (p : Port) (x : PairId) (serial : Word) : Option CleatEntry :=
  p.cleat.find? (fun e => e.pair == x && e.serial == serial)

/-- KIND of an entry. -/
def entryKind : FabricOp → Nat
  | .load _ => 0
  | .store _ _ _ _ => 0
  | .atomic _ _ _ => 1
  | .cas _ _ _ => 1
  | .red _ _ _ => 2
  | .contribution _ _ _ _ => 3
  | .result _ _ _ _ _ => 0

/-- An entry's answer to a lane whose serial it has. -/
def CleatEntry.answer (e : CleatEntry) : FabricAnswer := .done (e.result.setWidth 128) e.bad

/-! ## The owner's checks (R379) -/

/-- Bytes of a lane's access. -/
def opSize : FabricOp → Nat
  | .load n => n
  | .store n _ _ _ => n
  | .atomic _ wide _ => if wide then 8 else 4
  | .cas wide _ _ => if wide then 8 else 4
  | .red _ wide _ => if wide then 8 else 4
  | .contribution _ _ _ _ => 4
  | .result _ _ n _ _ => n

/-- The permission bit of a peer-table entry that an operation needs. -/
def opBit : FabricOp → Nat
  | .load _ => 62
  | .store _ _ _ _ => 61
  | .atomic _ _ _ => 60
  | .cas _ _ _ => 60
  | .red _ _ _ => 60
  | .contribution _ _ _ _ => 60
  | .result _ _ _ _ _ => 61

/-- The key a request is performed under, if it passes the checks. -/
def State.admits (s : State) (req : FabricReq) : Option Nat :=
  match s.entryFor req with
  | none => none
  | some (_, e) =>
    let key := (e.extractLsb' 54 6).toNat
    if s.inSpace req.tpart.toNat req.addr.toNat (opSize req.op) && e.getLsbD (opBit req.op) && (s.part req.tpart.toNat).ownsKey key then some key
    else none

/-! ## Sealed frames (R392) -/

/-- A frame is discarded: its tag fails, it is sealed under another key, its counter was accepted already, or lies below the window. -/
def LinkKey.rejects (k : LinkKey) (f : Seal) : Bool :=
  !f.genuine || f.index != k.index || k.seen.contains f.counter || decide (f.counter + 4096 < k.counter)

/-- A frame is older than 10 ms on its arrival (R384). -/
def staleFrame (f : Seal) (now : Nat) : Bool := decide (f.sentAt + 10000000 < now)

/-- A frame's counter accepted. -/
def LinkKey.accept (k : LinkKey) (counter : Nat) : LinkKey :=
  let top := max k.counter (counter + 1)
  { k with counter := top, seen := (counter :: k.seen).filter (fun c => decide (top ≤ c + 4096)) }

/-- An inbound frame under the key of a partition's window, or of the firmware: a stale one is discarded, a rejected one is discarded and
counted, or the state goes on with it. -/
def State.unseal (s : State) (part : Option Nat) (window : Nat) (frame : Seal) (f : State → State) : State :=
  if staleFrame frame s.now then s
  else
    match s.linkKey part window false with
    | none => f s
    | some k =>
      if k.rejects frame then s.modLinkKey part window false (fun k => { k with discarded := k.discarded + 1 })
      else f (s.modLinkKey part window false (fun k => k.accept frame.counter))

/-! ## Performing a lane (R168, R172, R303, R356, R379) -/

/-- The value an atomic leaves: compare and exchange. -/
def casValue (cmp new old : Nat) : Nat := if old = cmp then new else old

/-- The bytes a store writes. -/
def storeBytes (n : Nat) (data : BitVec 128) (mask : BitVec 16) : List (Option Byte) :=
  (List.range n).map (fun i => if mask.getLsbD i then some (data.extractLsb' (8 * i) 8) else none)

/-- A lane's effect on memory: its value, and whether that is uncorrectable; the location of an uncorrectable word is unchanged. -/
def State.performOp (s : State) (part : Nat) (t : Target) (op : FabricOp) : State × BitVec 128 × Bool :=
  let swap (wide : Bool) (f : Nat → Nat) : State × BitVec 128 × Bool :=
    let r := s.exchange part t (if wide then 8 else 4) f
    (r.1, BitVec.ofNat 128 r.2.1, r.2.2)
  match op with
  | .load n =>
    let r := s.readAt part t n
    (r.1, BitVec.ofNat 128 (leNat r.2.1), r.2.2)
  | .store n data mask bad =>
    let s1 := s.putAll part [⟨t, storeBytes n data mask⟩]
    (if bad then s1.poisonAt t n else s1, 0, false)
  | .atomic aop wide data => swap wide (fun old => atomOp aop (if wide then 64 else 32) old data.toNat)
  | .cas wide cmp new => swap wide (casValue cmp.toNat new.toNat)
  | .red aop wide data => swap wide (fun old => atomOp aop (if wide then 64 else 32) old data.toNat)
  | .contribution _ _ _ _ => (s, 0, false)
  | .result _ _ n data bad =>
    let s1 := s.putAll part [⟨t, ((bytesOf n data.toNat).map some)⟩]
    (if bad then s1.poisonAt t n else s1, 0, false)

/-- A COLL of a partition, resident or saved, with a CID. -/
def State.collOf (s : State) (part cid : Nat) (c : Coll) : Bool := collCid c.record == cid && s.partOf c.ctx == some part

/-- The COLL of a partition that takes a rank's contribution of the elements from one on (R395). -/
def State.collFor (s : State) (part cid rank first : Nat) : Option (Nat × Coll) :=
  s.colls.find? (fun c => s.collOf part cid c.2 && !c.2.parts.any (fun p => p.1 == rank && p.2.1 == first))

/-- Bytes of a COLL's DST that a peer has stored count as written; where their COLL is not issued yet they count from its issue on (R399). -/
def State.noteResult (s : State) (part cid off n : Nat) : State :=
  match s.colls.find? (fun c => s.collOf part cid c.2 && !c.2.written.contains (off, n)) with
  | none => { s with early := s.early ++ [(part, cid, off, n)] }
  | some (i, c) => (s.setColl i { c with written := (off, n) :: c.written }).collSettle i

/-- A lane performed at its owner; `none`: the owner is busy. -/
def State.perform (s : State) (req : FabricReq) (key : Nat) : Option (State × FabricAnswer) :=
  let part := req.tpart.toNat
  let r := s.performOp part (.dev ((s.part part).place 0 req.addr.toNat) key) req.op
  match req.op with
  | .load _ | .store _ _ _ _ | .atomic _ _ _ | .cas _ _ _ | .red _ _ _ => some (r.1, .done r.2.1 r.2.2)
  | .contribution cid rank first data =>
    match s.collFor part cid rank first with
    | none => none
    | some (i, c) => some ((s.setColl i { c with parts := c.parts ++ [(rank, first, data)] }).braidNow i, .done 0 false)
  | .result cid off n _ _ => some (r.1.noteResult part cid off n, .done 0 false)

/-- A lane of a partition whose keys are destroyed: no line of it decrypts (R373). -/
def State.performKeyless (s : State) (req : FabricReq) (key : Nat) : Option (State × FabricAnswer) :=
  if s.keyless req.tpart.toNat then
    match req.op with
    | .load _ => some (s, .done 0 true)
    | .store _ _ _ _ => some (s, .done 0 false)
    | .atomic _ _ _ => some (s, .done 0 true)
    | .cas _ _ _ => some (s, .done 0 true)
    | .red _ _ _ => some (s, .done 0 true)
    | .contribution _ _ _ _ => none
    | .result _ _ _ _ _ => some (s, .done 0 false)
  else s.perform req key

/-- The value a cleat entry keeps of an answer: that of an atomic, CAS or RED. -/
def entryResult (op : FabricOp) : FabricAnswer → BitVec 64
  | .done v _ => if entryKind op = 1 ∨ entryKind op = 2 then v.setWidth 64 else 0
  | .expired | .busy | .epoch | .denied => 0

/-- An answer tells that its lane met uncorrectable data. -/
def answerBad : FabricAnswer → Bool
  | .done _ bad => bad
  | .expired | .busy | .epoch | .denied => false

/-- A lane performed, with its entry made in the same step (R382). -/
def State.performAt (s : State) (port : Nat) (req : FabricReq) (key : Nat) : State :=
  match s.performKeyless req key with
  | none => s.replyTo port req .busy
  | some (s1, a) =>
    match req.serial with
    | none => s1.replyTo port req a
    | some n =>
      (s1.modPort port (fun p => { p with
        cleat := p.cleat ++ [⟨n, req.pair, entryKind req.op, BitVec.ofNat 32 (s.now / 1000), entryResult req.op a, req.addr, answerBad a⟩] })).replyTo port req a

/-- A request that the port has accepted: epoch, floor, cleat, checks, effect (R379, R382, R383, R387). -/
def State.serve (s : State) (port : Nat) (req : FabricReq) : State :=
  if req.epoch ≠ s.epoch then s.replyTo port req .epoch
  else
    let s1 := s.modPort port (fun p => p.hear req.pair req.wm s.now)
    let p := s1.port port
    let perform : State := match s1.admits req with
      | none => s1.replyTo port req .denied
      | some key => s1.performAt port req key
    match req.serial with
    | none => perform
    | some n =>
      match p.entryOf req.pair n with
      | some e => s1.replyTo port req e.answer
      | none =>
        if (p.pairOf req.pair).any (fun r => precedes n r.floor) then s1.replyTo port req .expired
        else if (s1.admits req).isSome && decide (Config.cleatEntries ≤ p.cleat.length) then s1.replyTo port req .busy
        else perform

/-- FABRIC_REQUEST (R379, R382–R384, R387, R392): where no entry names the requester there is no key either, and it is answered DENIED. -/
def execFabricRequest (port : Nat) (req : FabricReq) (s : State) : Host.Outcome State Fault Refusal :=
  s.event (s.devState == .running && decide (port < 12) && !staleFrame req.frame s.now)
    (match s.entryFor req with
     | none => s.serve port req
     | some (w, _) => s.unseal (some req.tpart.toNat) w req.frame (fun s => s.serve port req))

/-! ## Replies at the requester (R380, R384–R387) -/

/-- An operation leaves the outstanding list. -/
def State.closeOp (s : State) (id : Nat) : State := { s with remote := Map.erase s.remote id }

/-- The copy command an operation belongs to. -/
def State.copyOf (s : State) (o : RemoteOp) : Option CopyCmd := (s.core o.core).copies.find? (fun c => c.id == o.word)

/-- The drain buffer an operation belongs to. -/
def State.drainAt (s : State) (o : RemoteOp) : Option (Nat × DrainBuf) := (s.core o.core).drainOf o.word

/-- A slot stands at the COLL that asked for a part of its record. -/
def State.awaitsRecordOf (s : State) (o : RemoteOp) : Bool :=
  let here (p : PathSlot) : Bool := p.label == o.slot && p.pc == o.pc
  ((Map.find s.groups o.ctx).bind (fun g => g.waves[o.wave]?)).any (fun w => w.slots.any here || w.block.any (fun b => b.slots.any here))

/-- A failed operation: a word's lane keeps how it failed, an engine's cause waits for the covering wait (R184, R302, R380, R386). -/
def State.failOp (s : State) (id : Nat) (o : RemoteOp) (st : RemoteState) : State :=
  let cause := st.cause
  match o.cover with
  | none => { s with remote := Map.insert s.remote id { o with status := st } }
  | some (.channel _) =>
    match s.copyOf o with
    | some c => ((s.closeOp id).movePointer o.core c (min c.done o.off)).copyFault o.core c cause o.va
    | none => s.closeOp id
  | some (.batch b) =>
    match (s.core o.core).queue.find? (fun e => e.id == o.word && !opWrites o.op), s.drainAt o with
    | some e, _ => (s.closeOp id).imageFail o.core e cause o.va
    | none, some (i, _) => ((s.closeOp id).matFault o.core o.ctx o.wave b o.word cause o.va).modCore o.core (fun c => c.freeBuffer i)
    | none, none => if opWrites o.op then (s.closeOp id).matFault o.core o.ctx o.wave b o.word cause o.va else s.closeOp id
  | some (.coll _) =>
    match o.coll with
    | some i => match Map.find s.colls i with
      | some c => (s.closeOp id).collFault i c cause o.va
      | none => s.closeOp id
    | none => if s.awaitsRecordOf o then { s with remote := Map.insert s.remote id { o with status := st } } else s.closeOp id
  | some (.launch l) =>
    match Map.find s.launches l with
    | some x => ((s.closeOp id).castPart x.part { cls := 0x0A, cause := 0x8A, addr := BitVec.ofNat 64 x.node }).finish l x
    | none => s.closeOp id

/-- A lane's value reaches its word; the word goes on once no lane waits. -/
def State.wordReply (s : State) (o : RemoteOp) (v : BitVec 128) (bad : Bool) : State :=
  match Map.find (s.core o.core).reqs o.word, Map.find (s.core o.core).log o.word with
  | none, none => s
  | r, l =>
    match r.or l with
    | none => s
    | some m =>
      let t : Lane := if h : o.thread < 32 then ⟨o.thread, h⟩ else 0
      let m1 : MemWord := match o.op with
        | .load n => { m with
            returns := m.returns.set t (m.returns[t] ||| m.loaded t (o.off, n) (bytesOf n v.toNat))
            badLanes := if bad then m.badLanes ||| BitVec.ofNat 32 (2 ^ t.val) else m.badLanes }
        | .store _ _ _ _ => { m with applied := m.applied ||| BitVec.ofNat 32 (2 ^ t.val) }
        | .atomic _ _ _ => m.got t v bad
        | .cas _ _ _ => m.got t v bad
        | .red _ _ _ => m.got t v bad
        | .contribution _ _ _ _ => m
        | .result _ _ _ _ _ => m
      let put (c : Core) : Core :=
        { c with
          reqs := if r.isSome then Map.insert c.reqs o.word m1 else c.reqs
          log := if r.isNone then Map.insert c.log o.word m1 else c.log }
      let s1 := s.modCore o.core put
      match Map.find s.groups m.ctx with
      | none => s1
      | some g => if r.isSome && s1.awaited o.core o.word == 0 then s1.settleWord o.core g.part o.word m1 none else s1

/-- What comes of a reply to a copy command. -/
inductive CopyGiven
  /-- the command as it is now -/
  | ok (c : CopyCmd)
  | fail (cause : Cause) (addr : Addr)
  /-- the page its bytes go to faults, or peers' lanes have no room: the load stays outstanding, and is sent again -/
  | again
  deriving DecidableEq, Repr

/-- A reply to a copy command: bytes it read land at their place, a part of a multicast's list is kept with the command, and bytes that
were sent have landed (R183, R184, R191). -/
def State.copyGiven (s : State) (o : RemoteOp) (c : CopyCmd) (g : Group) (v : BitVec 128) (bad : Bool) : State × CopyGiven :=
  match o.op with
  | .load n =>
    if c.kind.unread then (s, .ok { c with got := c.got ++ [(o.va, bytesOf n v.toNat, bad)] })
    else
      match (c.kind.piece o.off n).dst with
      | none => (s, .ok c)
      | some d =>
        match s.spotAt (c.engine o.core g) c.kind.writeNeed d n with
        | (s1, .error (.fail cause a)) => (s1, .fail cause a)
        | (s1, .error _) => (s1, .again)
        | (s1, .ok t) =>
          if s1.remoteFull o.core c.ctx (c.kind.lanesTo t n) (c.kind.lanesTo t n) then (s1, .again)
          else (s1.copyDeliver o.core c g.part o.off d.addr t ((bytesOf n v.toNat).map (fun b => (b, bad))), .ok c)
  | .store n _ _ _ => (s.copyLanded c n, .ok c)
  | .red _ _ _ => (s.copyLanded c 4, .ok c)
  | .atomic _ _ _ | .cas _ _ _ | .contribution _ _ _ _ | .result _ _ _ _ _ => (s, .ok c)

/-- The command of a reply goes on. -/
def State.copyReply (s : State) (id : Nat) (o : RemoteOp) (v : BitVec 128) (bad : Bool) : State :=
  match s.copyOf o, Map.find s.groups o.ctx with
  | some c, some g =>
    match s.copyGiven o c g v bad with
    | (s1, .fail cause a) => s1.copyFault o.core c cause a
    | (s1, .again) => { s1 with remote := Map.insert s1.remote id o }
    | (s1, .ok c1) =>
      let s2 := s1.settleCopy o.core c1
      if s2.deferred || !s2.coreUp o.core then s2 else s2.workChannel o.core c.ctx c.wave c.ch (s2.onChannel o.core c.ctx c.wave c.ch).length
  | _, _ => s

/-- Bytes of an image that a peer gives: they are kept with the instruction, whose read goes on (R203, R206, R380). -/
def State.imageReply (s : State) (o : RemoteOp) (v : BitVec 128) (bad : Bool) : State :=
  match (s.core o.core).queue.find? (fun e => e.id == o.word), o.op with
  | some e, .load n =>
    let e1 := { e with got := e.got ++ [(o.va, bytesOf n v.toNat, bad)] }
    let s1 := s.modCore o.core (fun c => c.setEntry e1)
    match e.op with
    | .tld _ _ _ _ _ _ _ => if s1.deferred then s1 else s1.tileRead o.core e1
    | .mmag _ _ _ _ _ _ _ _ _ _ | .swap | .mma _ _ _ _ _ | .mmas _ _ _ _ _ _ _ | .aclr _ _ | .adrain _ _ _ _ _ | .ard _ _ _ _ _
    | .achk _ _ _ | .aflip _ _ _ _ => s1
  | _, _ => s

/-- A reply to the braid, or to a COLL that waits for its record: bytes are kept with it; it goes on, or is complete (R394–R399). -/
def State.collReply (s : State) (o : RemoteOp) (v : BitVec 128) (bad : Bool) : State :=
  match o.coll, o.op with
  | some i, .load n => s.collGiven i o n v bad
  | none, .load n => s.recordGiven o n v bad
  | some i, _ => (s.braidNow i).collSettle i
  | none, _ => s

/-- An operation has its reply. -/
def State.replied (s : State) (id : Nat) (o : RemoteOp) (v : BitVec 128) (bad : Bool) : State :=
  let s1 := s.closeOp id
  match o.cover with
  | none => s1.wordReply o v bad
  | some (.channel _) => s1.copyReply id o v bad
  | some (.batch _) => (s1.imageReply o v bad).runMatrix o.core
  | some (.coll _) => s1.collReply o v bad
  | some (.launch l) => match Map.find s1.launches l with
    | some x => s1.finish l x
    | none => s1

/-- Who sends an operation, what it asks of its leaf, and its address. -/
def State.sender (s : State) (o : RemoteOp) (g : Group) : Engine × Need × Addr :=
  let need : Need := match o.op with
    | .load _ => .engineRead
    | .store _ _ _ _ => .engineWrite
    | .atomic _ _ _ | .cas _ _ _ | .red _ _ _ => .engineAtomic
    | .contribution _ _ _ _ | .result _ _ _ _ _ => .engineWrite
  match o.cover with
  | none =>
    match Map.find ((s.core o.core).log ++ (s.core o.core).reqs) o.word with
    | some m => (⟨o.core, o.ctx, g, m.tag.toNat⟩, m.spec.need, o.va + BitVec.ofNat 64 o.off)
    | none => (⟨o.core, o.ctx, g, 0⟩, need, o.va + BitVec.ofNat 64 o.off)
  | some (.launch _) => (⟨o.core, o.ctx, g, 0⟩, need, o.va)
  | some (.channel _) => (⟨o.core, o.ctx, g, ((s.copyOf o).map (fun c => (c.engine o.core g).tag)).getD 0⟩, need, o.va)
  | some (.batch _) =>
    match (s.core o.core).queue.find? (fun e => e.id == o.word && !opWrites o.op) with
    | some e => (⟨o.core, o.ctx, g, e.tag.toNat⟩, .read, o.va)
    | none => (⟨o.core, o.ctx, g, ((s.drainAt o).map (fun b => b.2.tag.toNat)).getD 0⟩, need, o.va)
  | some (.coll _) =>
    match o.coll with
    | some i => (⟨o.core, o.ctx, g, ((Map.find s.colls i).map (fun c => (c.engine g).tag)).getD 0⟩, need, o.va)
    | none => (⟨o.core, o.ctx, g, ((g.waves[o.wave]?).map (fun w => w.tag.toNat)).getD 0⟩, need, o.va)

/-- A lane that was rejected at the egress, since its generation has passed, walks again (R270, R361): it is sent where its leaf now leads, is
performed there where that is no peer's memory, waits for the fault service, or fails. -/
def State.rewalk (s : State) (id : Nat) (o : RemoteOp) (g : Group) : State :=
  let q := s.sender o g
  match s.spotAt q.1 q.2.1 (.mem q.2.2) (opSize o.op) with
  | (s1, .error (.wait _ _)) => s1
  | (s1, .error (.peers _)) => s1
  | (s1, .error (.fail c _)) => s1.failOp id o (if c = .pageFault then .unmapped else if c = .translationPoison then .poisoned else .denied)
  | (s1, .ok (.peer w a)) =>
    ({ s1 with remote := Map.insert s1.remote id { o with window := w, addr := BitVec.ofNat 40 a, gen := s1.genOf o.ctx } }).sendFirst id
  | (s1, .ok t) =>
    match o.op with
    | .contribution _ _ _ _ | .result _ _ _ _ _ => s1.failOp id o .denied
    | .load _ | .store _ _ _ _ | .atomic _ _ _ | .cas _ _ _ | .red _ _ _ =>
      let r := s1.performOp g.part t o.op
      r.1.replied id o r.2.1 r.2.2

/-- The requester of an operation acts: the core of a completion word's is none, any other is not paused (R420). -/
def State.opActs (s : State) (o : RemoteOp) : Bool :=
  match o.cover with
  | some (.launch _) => true
  | some (.channel _) | some (.coll _) | some (.batch _) | none => s.coreUp o.core

/-- Lanes held back that nothing holds any more are sent, in order; their generation is checked at the egress (R361, R380). A paused cluster
sends nothing (R420). -/
def State.sendHeld (s : State) : State :=
  (s.remote.filter (fun o => o.2.status == .queued)).foldl (fun s x =>
    match Map.find s.remote x.1, Map.find s.groups x.2.ctx with
    | some o, some g =>
      if o.status ≠ .queued ∨ s.behind x.1 o ∨ !s.opActs o then s
      else if o.gen = s.genOf o.ctx then s.sendFirst x.1
      else s.rewalk x.1 o g
    | _, _ => s) s

/-- The operation may still be sent: its first transmission is not 1 s old (R385). -/
def RemoteOp.young (o : RemoteOp) (now : Nat) : Bool := decide (now < o.firstSent + 1000000000)

/-- An operation is sent again under its serial, or is indeterminate (R385, R386). -/
def State.resend (s : State) (id : Nat) (o : RemoteOp) : State := if o.young s.now then s.transmit id else s.failOp id o .indeterminate

/-- The owner has another epoch: the peer-table entry takes it and the operation is sent again (R387). -/
def State.newEpoch (s : State) (id : Nat) (o : RemoteOp) (part : Nat) (e : Word) : State :=
  let s1 := s.modPart part (fun p => { p with
    peers := Map.modify p.peers o.window (fun x => x.extractLsb' 32 32 ++ e) })
  let o1 := { o with epoch := e }
  ({ s1 with remote := Map.insert s1.remote id o1 }).resend id o1

/-- An answer reaches the requester. An EPOCH answer to a first transmission, and any answer to a load, lead to another transmission; that the
owner has booted since makes any other write indeterminate (R386, R387). -/
def State.answered (s : State) (rep : FabricRep) (o : RemoteOp) (part : Nat) : State :=
  match rep.answer with
  | .epoch => if o.sends ≤ 1 ∨ !opWrites o.op then s.newEpoch rep.op o part rep.epoch else s.failOp rep.op o .indeterminate
  | .busy => s.resend rep.op o
  | .expired => s.failOp rep.op o .indeterminate
  | .denied => s.failOp rep.op o .denied
  | .done v bad =>
    if rep.epoch = o.epoch then s.replied rep.op o v bad
    else if opWrites o.op then s.failOp rep.op o .indeterminate
    else s.newEpoch rep.op o part rep.epoch

/-- An answer that carries data, and so comes under the key of the partition pair; the others are privileged (R392, R393). -/
def repCarries (rep : FabricRep) : Bool :=
  match rep.answer with
  | .done _ _ => true
  | .expired | .busy | .epoch | .denied => false

/-- FABRIC_REPLY (R380, R383, R387, R392): a reply to an operation that has one already is nothing. -/
def execFabricReply (rep : FabricRep) (s : State) : Host.Outcome State Fault Refusal :=
  match Map.find s.remote rep.op with
  | none => .next s
  | some o =>
    match s.opPart o with
    | none => .next s
    | some part =>
      s.event (o.ctx == rep.ctx && o.status == .waiting && s.devState == .running)
        (s.unseal (if repCarries rep then some part else none)
          (if repCarries rep then o.window else ((s.peer part o.window).extractLsb' 32 12).toNat) rep.frame (fun s => (s.answered rep o part).sendHeld))

/-! ## Timeouts of the requester (R384, R385) -/

/-- RETRANSMIT_TIMEOUT (R385). -/
def execRetransmitTimeout (op : Nat) (s : State) : Host.Outcome State Fault Refusal :=
  match Map.find s.remote op with
  | none => .next s
  | some o =>
    s.event (o.status == .waiting && s.opActs o && decide (o.lastSent + o.interval ≤ s.now) && o.young s.now)
      ({ s with remote := Map.insert s.remote op { o with interval := min (2 * o.interval) 1600000 } }.transmit op)

/-- OPERATION_AGE_EXPIRY (R385, R386): a paused requester finds it when it next runs. -/
def execOperationAgeExpiry (op : Nat) (s : State) : Host.Outcome State Fault Refusal :=
  match Map.find s.remote op with
  | none => .next s
  | some o => s.event (o.status == .waiting && s.opActs o && !o.young s.now) ((s.failOp op o .indeterminate).sendHeld)

/-- REMOTE_STOP_TIMEOUT (R388): the writes of a group that are unanswered 20 ms after its stop began are indeterminate. -/
def execRemoteStopTimeout (ctx : Nat) (s : State) : Host.Outcome State Fault Refusal :=
  match Map.find s.groups ctx with
  | none => .next s
  | some g =>
    s.event (g.stop.any (fun x => !x.waiting && decide (x.since + 20000000 ≤ s.now)))
      ((s.remote.filter (fun o => o.2.ctx == ctx && o.2.open_ && opWrites o.2.op)).foldl (fun s x =>
        match Map.find s.remote x.1 with
        | none => s
        | some o => s.failOp x.1 o .indeterminate) s)

/-! ## Watermarks and forgetting (R383) -/

/-- CLEAT_ENTRY_AGE (R383): an entry older than 20 ms makes the port ask its pair; ages are told by the 32 bits of its stamp. -/
def execCleatEntryAge (port : Nat) (pair : PairId) (serial : Word) (s : State) : Host.Outcome State Fault Refusal :=
  s.event (((s.port port).entryOf pair serial).any (fun e => decide (20000 < (BitVec.ofNat 32 (s.now / 1000) - e.stamp).toNat)))
    (s.tell pair.qdev (.query port pair))

/-- A context that may have serials outstanding: resident, or saved. -/
def State.knowsCtx (s : State) (ctx : Nat) : Bool := (s.partOf ctx).isSome

/-- WATERMARK_QUERY (R383): the requester answers, of a context that is resident or saved. -/
def execWatermarkQuery (ask : WatermarkAsk) (port : Nat) (s : State) : Host.Outcome State Fault Refusal :=
  s.event (s.devState == .running)
    (s.unseal none ask.dev.toNat ask.frame (fun s =>
      if s.knowsCtx ask.ctx then s.tell ask.dev (.watermark ask.ctx port (s.watermark ask.ctx)) else s))

/-- WATERMARK_ANSWER (R383): the floor rises and entries it has passed retire. -/
def execWatermarkAnswer (port : Nat) (pair : PairId) (told : WatermarkTold) (s : State) : Host.Outcome State Fault Refusal :=
  s.event (s.devState == .running && ((s.port port).pairOf pair).isSome)
    (s.unseal none pair.qdev.toNat told.frame (fun s => s.modPort port (fun p => p.hear pair told.wm s.now)))

/-- CLEAT_ABANDON (R383): the pair has been silent for 1 s; its floor rises past the entry. -/
def execCleatAbandon (port : Nat) (pair : PairId) (serial : Word) (s : State) : Host.Outcome State Fault Refusal :=
  s.event (((s.port port).entryOf pair serial).isSome &&
      ((s.port port).pairOf pair).any (fun r => decide (r.lastHeard + 1000000000 ≤ s.now)))
    (s.modPort port (fun p =>
      let q := p.raise pair (serial + 1)
      { q with
        cleat := q.cleat.filter (fun e => !(e.pair == pair && e.serial == serial))
        pairs := q.pairs.map (fun r => if r.pair = pair then { r with lastAbandon := some s.now } else r) }))

/-- PAIR_FORGET (R383). -/
def execPairForget (port : Nat) (pair : PairId) (s : State) : Host.Outcome State Fault Refusal :=
  let p := s.port port
  s.event (!p.cleat.any (fun e => e.pair == pair) && (p.pairOf pair).any (fun r => decide (r.lastHeard + 1000000000 ≤ s.now) &&
      (match r.lastAbandon with | none => true | some t => decide (t + 1000000000 ≤ s.now))))
    (s.modPort port (fun p => { p with pairs := p.pairs.filter (fun r => r.pair != pair) }))

/-! ## Links (R390–R393, R416, R421) -/

/-- A port or the splice. -/
def portKnown (port : Nat) : Bool := decide (port ≤ splicePort)

/-- The newest flit that a port's replay buffer keeps goes out again, and no frame with it (R390; log entry 85). -/
def State.replayFlit (s : State) (port : Nat) : State :=
  match (s.port port).replay with
  | [] => s
  | x :: _ => s.send (.flit port x.1 x.2)

/-- FLIT_CRC_FAIL (R390, R416): the stored flit goes out again; the lane has lost a flit and is tested. -/
def execFlitCrcFail (port lane : Nat) (s : State) : Host.Outcome State Fault Refusal :=
  s.event (portKnown port && (s.port port).lanes[lane]?.any (fun l => !l.retired))
    (((s.replayFlit port).modPort port (fun p => { p with lanes := p.lanes.modify lane (fun l => { l with lost := l.lost + 1 }) })).startTest
      (laneUnit port lane) none)

/-- The rate below or above one (R391). -/
def rateBelow (r : Nat) : Nat := if r = 224 then 168 else 112
/-- The rate above one. -/
def rateAbove (r : Nat) : Nat := if r = 112 then 168 else 224

/-- The lanes in service of a port changed. -/
def Port.inService (p : Port) (f : LinkLane → LinkLane) : Port := { p with lanes := p.lanes.map (fun l => if l.retired then l else f l) }

/-- A port's lanes go to another rate: they retrain, the step enters their wear records and the cast record, and each lane in service is
tested. -/
def State.stepRate (s : State) (port rate : Nat) : State :=
  let s1 := (s.modPort port (fun p => { p.inService (fun l => { l with count := l.count + 1 }) with rate := rate, retraining := some s.now, passed := false })).castUnit (laneUnit port 0) 0x06 3
    (BitVec.ofNat 32 rate)
  ((s.port port).lanes.zipIdx.filter (fun x => !x.1.retired)).foldl (fun s x => s.startTest (laneUnit port x.2) none) s1

/-- RATE_STEP_DOWN (R391, R421). -/
def execRateStepDown (port : Nat) (s : State) : Host.Outcome State Fault Refusal :=
  s.event (portKnown port && decide (112 < (s.port port).rate))
    ((s.modPort port (fun p => p.inService (fun l => { l with steps := s.now :: l.steps }))).stepRate port (rateBelow (s.port port).rate))

/-- LANE_RETRAIN_END (R391): held frames are sent in order. -/
def execLaneRetrainEnd (port : Nat) (s : State) : Host.Outcome State Fault Refusal :=
  s.event (portKnown port && (s.port port).retraining.isSome) (s.endRetrain port)

/-- RATE_STEP_UP (R391): on a management command, after a passing lane test. -/
def execRateStepUp (port : Nat) (s : State) : Host.Outcome State Fault Refusal :=
  s.event (portKnown port && (s.port port).passed && decide ((s.port port).rate < 224)) (s.stepRate port (rateAbove (s.port port).rate))

/-- SPRAY_RESEND (R393): a message of which two slices are missing after 20 µs goes out whole again; one that any four slices have rebuilt is
done. -/
def execSprayResend (slices : SlicesMissing) (s : State) : Host.Outcome State Fault Refusal :=
  let lost := ((List.range 5).filter (fun i => slices.missing.contains i)).length
  match Map.find s.sprays slices.msg with
  | none => .next s
  | some (x, t) =>
    if lost < 2 then .next { s with sprays := Map.erase s.sprays slices.msg }
    else s.event (decide (t + 20000 ≤ s.now)) { s.slices x with sprays := Map.insert s.sprays slices.msg (x, s.now) }

/-- LINK_KEY_UPDATE (R392): the next key of a partition pair, or of the firmware, and direction; its frames count anew. -/
def execLinkKeyUpdate (part : Option (BitVec 5)) (window : BitVec 12) (outbound : Bool) (s : State) : Host.Outcome State Fault Refusal :=
  let p := part.map BitVec.toNat
  s.event ((s.linkKey p window.toNat outbound).isSome)
    (s.modLinkKey p window.toNat outbound (fun k => { k with index := k.index + 1, counter := 0, seen := [] }))

/-! ## FAULTDB (R360) -/

/-- Lanes rejected at the egress whose page a record has resolved with a failure give up with its cause. -/
def State.failHeld (s : State) (r : FaultRec) (st : RemoteState) : State :=
  (s.remote.filter (fun o => o.2.status == .queued && o.2.core == r.core && o.2.gen != s.genOf o.2.ctx)).foldl (fun s x =>
    match Map.find s.groups x.2.ctx with
    | none => s
    | some g =>
      if g.part = r.part ∧ g.asid = r.asid ∧ (s.sender x.2 g).2.2.toNat % 2 ^ 57 / 65536 = r.va.toNat % 2 ^ 57 / 65536 then s.failOp x.1 x.2 st else s) s

/-- The service's reply reaches the lanes that walk again at the egress: they fail with its cause, or walk again. -/
def State.replyHeld (s s1 : State) (token : Nat) : State :=
  match Map.find s.faultRecs token, Map.find s1.faultRecs token with
  | some r, none =>
    match r.index with
    | none => s1
    | some i =>
      if s.recordStatus r i = 1 then s1.sendHeld
      else
        (s1.failHeld r (match statusCause (s.recordStatus r i) with
          | .permission => .denied
          | .translationPoison => .poisoned
          | _ => .unmapped)).sendHeld
  | _, _ => s1

/-- FAULTDB_WRITE (R360). -/
def execFaultdbWrite (part : BitVec 5) (value : BitVec 64) (trusted : Bool) (s : State) : Host.Outcome State Fault Refusal :=
  let token := value.toNat % 2 ^ 32
  s.hostTouch part.toNat trusted ((s.part part.toNat).pstat != 1) (s.replyHeld (s.serviceReply part.toNat token) token)

end Sys2Proof.Machine
end

