-- ==== Sys2Proof/Machine/Security.lean ====
section
/-! DEFINITION. SPDM, TDISP, the configuration and the reset of partitions (R367, R370–R374, R378, R392). -/

namespace Sys2Proof.Machine

/-! ## Measurements (R372) -/

/-- A flag as a number. -/
def flagNat (b : Bool) : Nat := if b then 1 else 0

/-- What a partition's map measures: clusters, ASID range, keys. -/
def Partition.mapNumbers (p : Partition) : List Nat :=
  [p.clusters.toNat, p.asidFirst, p.asidCount, p.keys.toNat, p.primary.toNat] ++ p.peers.flatMap (fun e => [e.1, e.2.toNat])

/-- The TDI report of a partition. -/
def Partition.report (p : Partition) : List Nat :=
  [p.clusters.toNat, p.asidFirst, p.asidCount, p.primary.toNat, flagNat p.grantPriv, flagNat p.grantTest, p.legacy.toNat]

/-- What an index measures. DESIGN CHOICE (log entry 96): R431 has the running version of each component reported and R372 names no index for
the cluster firmware: it stands with the control cores' firmware. -/
def State.measured (s : State) (index : Nat) : Option (List Nat) :=
  match index with
  | 1 => some [1, s.versions[0]]
  | 2 => some ([2, s.versions[1], s.versions[2]] ++ s.clusters.toList.map (fun c => c.firmware))
  | 3 => some (3 :: s.parts.toList.flatMap (fun p => p.mapNumbers))
  | 4 => some (4 :: s.floors.toList)
  | _ => if 0x10 ≤ index ∧ index < 0x30 then some (index :: (s.part (index - 0x10)).report) else none

/-! ## The responder (R372) -/

/-- How far a connection has come. -/
def Spdm.rank : Spdm → Nat
  | .start => 0 | .version => 1 | .capabilities => 2 | .algorithms => 3

/-- The connection of the device or of a TDI. -/
def State.spdmOf (s : State) : Responder → Spdm
  | .device => s.spdm
  | .tdi p => (s.part p.toNat).spdm

/-- The sessions of the device or of a TDI. -/
def State.sessionsOf (s : State) : Responder → List (Nat × Session)
  | .device => s.sessions
  | .tdi p => (s.part p.toNat).sessions

/-- A connection changed. -/
def State.spdmTo (s : State) (who : Responder) (x : Spdm) : State :=
  match who with
  | .device => { s with spdm := x }
  | .tdi p => s.modPart p.toNat (fun q => { q with spdm := x })

/-- Sessions changed. -/
def State.modSessions (s : State) (who : Responder) (f : List (Nat × Session) → List (Nat × Session)) : State :=
  match who with
  | .device => { s with sessions := f s.sessions }
  | .tdi p => s.modPart p.toNat (fun q => { q with sessions := f q.sessions })

/-- The Ecinzel firmware, which is the responder, runs: it does not before a boot has started it, nor in recovery (R429). -/
def State.served (s : State) : Bool := s.devState == .running || s.devState == .fatal

/-- An answer of the responder: 0 is an error, then the requests in the order of R372. -/
def State.spdmSay (s : State) (who : Responder) (what : Nat) (body : List Nat) : State := s.send (.spdm who what body)

/-- A request that needs the connection to have come so far; earlier it is answered with an error. -/
def State.spdmAt (s : State) (who : Responder) (rank : Nat) (f : State) : Host.Outcome State Fault Refusal :=
  s.event s.served (if rank ≤ (s.spdmOf who).rank then f else s.spdmSay who 0 [])

/-- GET_VERSION (R372): the connection starts anew. -/
def execGetVersion (who : Responder) (s : State) : Host.Outcome State Fault Refusal :=
  s.event s.served ((s.spdmTo who .version).spdmSay who 1 [0x13])

/-- GET_CAPABILITIES (R372). -/
def execGetCapabilities (who : Responder) (s : State) : Host.Outcome State Fault Refusal :=
  s.spdmAt who 1 ((s.spdmTo who .capabilities).spdmSay who 2 [])

/-- NEGOTIATE_ALGORITHMS (R372): ML-DSA-44, SHA3-256, ML-KEM-768, AES-256-GCM. -/
def execNegotiateAlgorithms (who : Responder) (s : State) : Host.Outcome State Fault Refusal :=
  s.spdmAt who 2 ((s.spdmTo who .algorithms).spdmSay who 3 [44, 256, 768, 256])

/-- The digest of the device's certificates. -/
def certDigest : Nat := (Config.digest []).toNat

/-- GET_DIGESTS (R372). -/
def execGetDigests (who : Responder) (s : State) : Host.Outcome State Fault Refusal := s.spdmAt who 3 (s.spdmSay who 4 [certDigest])

/-- GET_CERTIFICATE (R372): the certificate chain, which its digest stands for. -/
def execGetCertificate (who : Responder) (s : State) : Host.Outcome State Fault Refusal := s.spdmAt who 3 (s.spdmSay who 5 [certDigest])

/-- CHALLENGE (R372): a signature over the nonce. -/
def execChallenge (who : Responder) (nonce : Nat) (s : State) : Host.Outcome State Fault Refusal :=
  s.spdmAt who 3 (s.spdmSay who 6 [(Config.signature 0 [nonce, certDigest]).toNat])

/-- GET_MEASUREMENTS (R372). -/
def execGetMeasurements (who : Responder) (index : Nat) (s : State) : Host.Outcome State Fault Refusal :=
  s.spdmAt who 3 (match s.measured index with
    | some l => s.spdmSay who 7 [index, (Config.digest l).toNat]
    | none => s.spdmSay who 0 [])

/-! ## Sessions (R372) -/

/-- A session of the device or of a TDI. -/
def State.session (s : State) (who : Responder) (id : Nat) : Option Session := Map.find (s.sessionsOf who) id

/-- KEY_EXCHANGE (R372): a session of one requester begins its handshake. -/
def execKeyExchange (who : Responder) (requester : Nat) (s : State) : Host.Outcome State Fault Refusal :=
  s.spdmAt who 3 ((s.takeId.modSessions who (fun l => Map.insert l s.nextId ⟨requester, false, 0, 0⟩)).spdmSay who 8 [s.nextId])

/-- A message inside a session in a state of its handshake; otherwise it is answered with an error. -/
def State.inSession (s : State) (who : Responder) (id : Nat) (finished : Bool) (f : State) : State :=
  if (s.session who id).any (fun x => x.finished == finished) then f else s.spdmSay who 0 []

/-- A session changed. -/
def State.modSession (s : State) (who : Responder) (id : Nat) (f : Session → Session) : State := s.modSessions who (fun l => Map.modify l id f)

/-- FINISH (R372). -/
def execFinish (who : Responder) (session : Nat) (s : State) : Host.Outcome State Fault Refusal :=
  s.event s.served (s.inSession who session false ((s.modSession who session (fun x => { x with finished := true })).spdmSay who 9 [session]))

/-- HEARTBEAT (R372). -/
def execHeartbeat (who : Responder) (session : Nat) (s : State) : Host.Outcome State Fault Refusal :=
  s.event s.served
    (s.inSession who session true ((s.modSession who session (fun x => { x with heartbeats := x.heartbeats + 1 })).spdmSay who 10 [session]))

/-- KEY_UPDATE (R372). -/
def execKeyUpdate (who : Responder) (session : Nat) (s : State) : Host.Outcome State Fault Refusal :=
  s.event s.served (s.inSession who session true ((s.modSession who session (fun x => { x with updates := x.updates + 1 })).spdmSay who 11 [session]))

/-- END_SESSION (R372). -/
def execEndSession (who : Responder) (session : Nat) (s : State) : Host.Outcome State Fault Refusal :=
  s.event s.served (s.inSession who session true ((s.modSessions who (fun l => Map.erase l session)).spdmSay who 12 [session]))

/-! ## The reset of a partition (R373) -/

/-- The device byte lies in a channel of the partition. -/
def Partition.holds (p : Partition) (ga : Nat) : Bool := p.coreList.contains (ga / Config.channelBytes)

/-- Every channel of the partition scrubbed to zero under its primary key. -/
def State.scrub (s : State) (p : Partition) : State :=
  { s with
    mem := s.mem.filter (fun c => !p.holds c.1)
    badLines := s.badLines.filter (fun l => !p.holds (l * 64))
    lineKeys := s.lineKeys.filter (fun l => !p.holds (l.1 * 64))
    homeLines := s.homeLines.filter (fun l => !p.holds (l * 64)) }

/-- An event that a core's word has sent is recorded; the barriers of a partition that is reset are gone. -/
def State.landEvent (s : State) (c : Nat) : Post → State
  | .event e => s.cast (clusterOf c) e
  | .arrival _ _ _ _ _ _ _ _ | .gone _ _ _ | .killed _ _ _ => s

/-- A core of a partition that is reset: the events of its words leave it, CLOCK counts from 0 again (R23), and TAASTAT's origin has its
reset value (R223; log entry 74). -/
def State.restartCore (s : State) (c : Nat) : State :=
  let s1 := ((s.core c).posts.foldl (fun s p => s.landEvent c p.2) s).modCore c (fun k => { k with clock := 0, orgR := 0, orgC := 0, posts := [] })
  { s1 with history := s1.history.filter (fun x => x.coreNo != c) }

/-- A reset starts: every launch completes with RESULT 3 and CAUSE 0x89, and the keys are destroyed (R373 steps 1 and 2, R423). -/
def State.startReset (s : State) (part : Nat) : State :=
  let s1 := (s.part part).coreList.foldl State.restartCore (s.stopPartition part)
  ({ s1 with
     faultRecs := s1.faultRecs.filter (fun r => r.2.part != part)
     bumps := s1.bumps.filter (fun b => b.part != part)
     early := s1.early.filter (fun x => x.1 != part) }).modPart part (fun p =>
       { p with pstat := 1, stopAsked := false, recordKey := p.recordKey + 1 })

/-- Entry to ERROR (R371, R373). -/
def State.toError (s : State) (part : Nat) : State := (s.startReset part).modPart part (fun p => { p with tdi := .error })

/-- The TDI stays in ERROR after the reset that its entry there started, until STOP_INTERFACE (R371). -/
def Partition.staysError (p : Partition) : Bool := p.tdi == .error && !p.stopAsked

/-- The scrub ends (R373 steps 3 and 4): memory is zero under the primary key, PSTAT reads 2 and the TDI stands in CONFIG_UNLOCKED; one that
stays in ERROR has PSTAT 3. -/
def State.endReset (s : State) (part : Nat) : State :=
  let p := s.part part
  let s1 := p.coreList.foldl (fun s c => s.modCore c (fun k => { k with tlb := [], l1 := [] })) (s.scrub p)
  ({ s1 with gens := s1.gens.filter (fun g => !(decide (p.asidFirst ≤ g.1) && decide (g.1 < p.asidFirst + p.asidCount))) }).modPart part (fun p =>
    { p with
      quarantine := []
      formed := p.primary
      pstat := if p.staysError then 3 else 2
      tdi := if p.staysError then Tdi.error else Tdi.unlocked
      stopAsked := false })

/-- PARTITION_RESET (R373). -/
def execPartitionReset (part : BitVec 5) (s : State) : Host.Outcome State Fault Refusal :=
  s.event (s.devState == .running && (s.part part.toNat).pstat != 1) (s.startReset part.toNat)

/-- PARTITION_RESET_END (R373). -/
def execPartitionResetEnd (part : BitVec 5) (s : State) : Host.Outcome State Fault Refusal :=
  s.event ((s.part part.toNat).pstat == 1) (s.endReset part.toNat)

/-! ## TDISP (R371) -/

/-- A TDISP message inside a secured session: it changes the TDI's state, or is answered with an error. -/
def State.tdisp (s : State) (part : BitVec 5) (session : Nat) (may : Bool) (f : State) : Host.Outcome State Fault Refusal :=
  s.event s.served (s.inSession (.tdi part) session true (if may then f.spdmSay (.tdi part) 13 [session] else s.spdmSay (.tdi part) 0 []))

/-- TDI_LOCK (R371): CONFIG_UNLOCKED to CONFIG_LOCKED. -/
def execTdiLock (part : BitVec 5) (session : Nat) (s : State) : Host.Outcome State Fault Refusal :=
  let p := s.part part.toNat
  s.tdisp part session (p.tdi == .unlocked && p.pstat != 1) (s.modPart part.toNat (fun p => { p with tdi := .locked }))

/-- TDI_START (R371): CONFIG_LOCKED to RUN. -/
def execTdiStart (part : BitVec 5) (session : Nat) (s : State) : Host.Outcome State Fault Refusal :=
  let p := s.part part.toNat
  s.tdisp part session (p.tdi == .locked && p.pstat != 1) (s.modPart part.toNat (fun p => { p with tdi := .run, pstat := 0 }))

/-- STOP_INTERFACE (R371, R373): a reset starts, after which the TDI stands in CONFIG_UNLOCKED, one in ERROR too; the reset that the entry to
ERROR started serves as well. -/
def execStopInterface (part : BitVec 5) (session : Nat) (s : State) : Host.Outcome State Fault Refusal :=
  let p := s.part part.toNat
  s.tdisp part session (p.pstat != 1 || p.tdi == .error)
    ((if p.pstat = 1 then s else s.startReset part.toNat).modPart part.toNat (fun p => { p with stopAsked := p.tdi == .error }))

/-! ## Configuration (R346, R367, R370, R371, R374, R378, R392) -/

/-- The ASID ranges have an ASID in common. -/
def rangesMeet (a n b m : Nat) : Bool := decide (0 < n) && decide (0 < m) && decide (a < b + m) && decide (b < a + n)

/-- What a configuration asks is not another partition's, and is well-formed. -/
def State.configFree (s : State) (part : Nat) (c : PartConfig) : Bool :=
  (List.range 32).all (fun q => q == part ||
    ((s.part q).clusters &&& c.clusters == 0 && (s.part q).keys &&& c.keys == 0 &&
      !rangesMeet (s.part q).asidFirst (s.part q).asidCount c.asidFirst.toNat c.asidCount.toNat)) &&
  decide (c.asidFirst.toNat + c.asidCount.toNat ≤ 1024) && !c.keys.getLsbD 0 && (c.clusters == 0 || c.keys.getLsbD c.primary.toNat) &&
  c.peers.all (fun e => !e.2.getLsbD 63 || c.keys.getLsbD (e.2.extractLsb' 54 6).toNat)

/-- It moves clusters, keys or ASIDs that the partition already had or is given. -/
def Partition.moves (p : Partition) (c : PartConfig) : Bool :=
  p.clusters != c.clusters || p.keys != c.keys || p.asidFirst != c.asidFirst.toNat || p.asidCount != c.asidCount.toNat

/-- A partition that has never been given clusters. -/
def Partition.fresh (p : Partition) : Bool := p.clusters == 0 && p.keys == 0 && p.asidCount == 0

/-- The partition as configured. -/
def Partition.configure (p : Partition) (c : PartConfig) : Partition :=
  { p with
    clusters := c.clusters
    asidFirst := c.asidFirst.toNat
    asidCount := c.asidCount.toNat
    keys := c.keys
    primary := c.primary
    root := c.root
    grantPriv := c.grantPriv
    grantTest := c.grantTest
    legacy := c.legacy
    attrs := c.attrs
    peers := c.peers.foldl (fun m e => Map.insert m e.1.toNat (e.2 &&& 0xFFC1FFFFFFFFFFFF)) [] }

/-- Keys of a partition's window, or of the firmware with a device, in both directions. -/
def keyPair (part : Option Nat) (window : Nat) : List LinkKey := [⟨part, window, true, 0, 0, [], 0⟩, ⟨part, window, false, 0, 0, [], 0⟩]

/-- The link keys of a partition's valid entries, agreed as the entries are validated, and the firmware's with devices that have none yet. -/
def State.withLinkKeys (s : State) (part : Nat) (c : PartConfig) : State :=
  let valid := c.peers.filter (fun e => e.2.getLsbD 63)
  let devs := ((valid.map (fun e => (e.2.extractLsb' 32 12).toNat)).dedup).filter (fun d => (s.linkKey none d true).isNone)
  { s with linkKeys := s.linkKeys.filter (fun k => k.part != some part) ++ valid.flatMap (fun e => keyPair (some part) e.1.toNat) ++
      devs.flatMap (keyPair none) }

/-- A configuration taken: changed clusters start with their memory zero under the primary key (R374), the root RCB is created, again where a
reset has scrubbed it (R318), and code on the control cores may have taken CTXIDs (R326). -/
def State.configure (s : State) (part : Nat) (c : PartConfig) : State :=
  let old := s.part part
  let p := old.configure c
  let same := old.clusters == c.clusters
  let s1 := (if same then s else s.scrub p).modPart part (fun _ => { p with formed := if same then p.formed else c.primary })
  let s2 := if same && old.root == c.root && old.pstat != 2 then s1 else s1.makeRoot part
  s2.takeControlCtx.withLinkKeys part c

/-- PARTITION_CONFIG (R371): in a running device (R429); outside CONFIG_UNLOCKED the TDI moves to ERROR; what moves between partitions does so
at PSTAT 2. -/
def execPartitionConfig (part : BitVec 5) (cfg : PartConfig) (s : State) : Host.Outcome State Fault Refusal :=
  let p := s.part part.toNat
  if s.devState ≠ .running then .next s
  else if p.tdi ≠ .unlocked then (if p.pstat = 1 then s.modPart part.toNat (fun p => { p with tdi := .error }) else s.toError part.toNat).outcome
  else s.event (p.pstat != 1 && s.configFree part.toNat cfg && (!p.moves cfg || p.fresh || p.pstat == 2)) (s.configure part.toNat cfg)

end Sys2Proof.Machine
end

