-- ==== Sys2Proof/Machine/Hours.lean ====
section
/-! DEFINITION. Reliability over hours, strikes, power and clocks, boot and firmware (R306, R414, R415, R418–R432). -/

namespace Sys2Proof.Machine

/-! ## In-field tests (R415, R419, R420) -/

/-- The resident groups of a cluster. -/
def State.residents (s : State) (k : Nat) : List Group := (s.groups.map Prod.snd).filter (fun g => clusterOf g.core == k)

/-- When a cluster's next test falls due: TESTINT hours after its last one. -/
def Cluster.dueAt (c : Cluster) : Nat := c.lastTest + c.testint.toNat * 3600000000000

/-- IN_FIELD_TEST_DUE (R419). -/
def execInFieldTestDue (cluster : Nat) (s : State) : Host.Outcome State Fault Refusal :=
  let c := s.cluster cluster
  s.event (decide (cluster < Config.clusters) && c.fieldTest == .none && decide (c.dueAt ≤ s.now))
    (s.modCluster cluster (fun c => { c with fieldTest := .due c.dueAt }))

/-- The group lets its cluster pause: no hold, no pre-emption, no halt under way (R420). -/
def Group.mayPause (g : Group) : Bool := g.held.isNone && g.stop.isNone && !g.halting && !g.waves.any (fun w => w.halt.isTrapped)

/-- How a due test begins: on an idle cluster, or on one that pauses after GRACE seconds. -/
def State.testBegins (s : State) (k : Nat) : Option FieldTest :=
  let c := s.cluster k
  match c.fieldTest with
  | .due since =>
    if (s.residents k).isEmpty then some (.run false 0)
    else if !c.idleOnly && decide (since + c.grace.toNat * 1000000000 ≤ s.now) && (s.residents k).all Group.mayPause then some (.run true 0)
    else none
  | .none => none
  | .run _ _ => none

/-- IN_FIELD_TEST_START (R419, R420). -/
def execInFieldTestStart (cluster : Nat) (s : State) : Host.Outcome State Fault Refusal :=
  match s.testBegins cluster with
  | none => .next s
  | some t => .next (s.modCluster cluster (fun c => { c with fieldTest := t }))

/-- The cores of a cluster. -/
def clusterCores (k : Nat) : List Nat := (List.range Config.coresPerCluster).map (fun i => k * Config.coresPerCluster + i)

/-- The units of a cluster: those of its cores, and the banks of its scratchpad. -/
def clusterUnits (k : Nat) : List UnitRef :=
  (clusterCores k).flatMap coreUnits ++ (List.range 33).map (fun i => ⟨k * Config.coresPerCluster, 2, BitVec.ofNat 12 (33 + i)⟩)

/-- One unit's result: a lasting fault retires it; the worst result so far. -/
def State.fieldUnit (acc : State × Nat) (u : UnitRef) : State × Nat :=
  let r := testCode acc.1.fresh
  let s1 := acc.1.draw
  (if r = 2 ∧ !s1.refuses u then s1.retireUnit u else s1, max acc.2 r)

/-- One strike sensor's result. -/
def State.fieldSensor (core : Nat) (s : State) (i : Nat) : State :=
  if Config.sensorFails s.fresh then s.draw.modCore core (fun c => { c with failedSensors := insertNat i c.failedSensors }) else s.draw

/-- Two sensors whose areas adjoin have failed (R415). -/
def Core.blind (c : Core) : Bool :=
  c.failedSensors.any (fun i => c.failedSensors.any (fun j => decide (i < j) && Config.sensorsAdjoin i j))

/-- The strike sensors of a core tested. -/
def State.fieldSensors (s : State) (core : Nat) : State :=
  let s1 := (List.range 40).foldl (State.fieldSensor core) s
  s1.modCore core (fun c => { c with retired := c.retired || c.blind })

/-- Everything on a cluster continues from where its pause stopped it: lanes that could not be sent are, and engines go on (R419, R420). -/
def State.endPause (s : State) (k : Nat) : State :=
  (clusterCores k).foldl (fun s c =>
    s.workEngines c (s.core c).copies ((s.colls.filter (fun x => x.2.core == c)).map Prod.fst)) (s.endTests k).sendHeld

/-- The result of a cluster's in-field test in its cast record (R422). -/
def State.castField (s : State) (k r : Nat) : State := s.cast k { cls := 0x05, cause := r, data := BitVec.ofNat 32 r }

/-- IN_FIELD_TEST_END (R415, R419, R420). -/
def execInFieldTestEnd (cluster : Nat) (s : State) : Host.Outcome State Fault Refusal :=
  s.event ((s.cluster cluster).fieldTest.stops)
    (let r := (clusterUnits cluster).foldl State.fieldUnit (s.endPause cluster, 0)
     ((clusterCores cluster).foldl State.fieldSensors r.1).castField cluster r.2)

/-! ## Strikes (R306–R308, R413, R414, R420) -/

/-- A restart of the cluster's in-field test, or its end as incomplete at the third strike (R420). -/
def State.strikeTest (s : State) (k : Nat) : State :=
  match (s.cluster k).fieldTest with
  | .run paused n => if 2 ≤ n then (s.endPause k).castField k 4 else s.modCluster k (fun c => { c with fieldTest := .run paused (n + 1) })
  | .none | .due _ => s

/-- STRIKE (R306, R414): the oldest state of the last 40 clocks returns, and issue stops for 64. -/
def execStrike (core : Nat) (s : State) : Host.Outcome State Fault Refusal :=
  s.event (s.devState == .running && decide (core < Config.cores))
    (let old := (keepRecent core (s.core core).clock.toNat s.history).filter (fun x => x.coreNo == core)
     let s1 := match old.getLast? with
       | none => s
       | some x => ({ s with history := s.history.filter (fun y => y.coreNo != core) }.restoreCore x).dropOrphans core
     let times := s.now :: (s1.core core).strikes.filter (fun t => decide (s.now < t + 1000000000))
     let s2 := (s1.modCore core (fun c => { c with stopLeft := 64, strikes := times })).cast (clusterOf core) { cls := 0x04, cause := 0, core := core }
     let s3 := if 64 < times.length then (coreUnits core).foldl (fun s u => s.startTest u none) s2 else s2
     s3.strikeTest (clusterOf core))

/-! ## Supply, ratio, temperature (R426, R427, R432) -/

/-- SUPPLY_SAG (R426): the clock period grows by 1/8, or doubles below the second threshold. -/
def execSupplySag (cluster : Nat) (deep : Bool) (s : State) : Host.Outcome State Fault Refusal :=
  s.event (decide (cluster < Config.clusters))
    ((s.modCluster cluster (fun c => { c with sagging := true, stretch := max c.stretch (if deep then 8 else 1) })).cast cluster { cls := 0x07, cause := 2 })

/-- SUPPLY_RECOVERY (R426). -/
def execSupplyRecovery (cluster : Nat) (s : State) : Host.Outcome State Fault Refusal :=
  s.event ((s.cluster cluster).sagging) (s.modCluster cluster (fun c => { c with sagging := false }))

/-- SAG_RECOVERY_STEP (R426): after 64 cluster clocks the stretch is 1/8 less. -/
def execSagRecoveryStep (cluster : Nat) (s : State) : Host.Outcome State Fault Refusal :=
  let c := s.cluster cluster
  s.event (!c.sagging && decide (0 < c.stretch)) (s.modCluster cluster (fun c => { c with stretch := c.stretch - 1, clock := c.clock + 64 }))

/-- A core's ratio goes to a number of eighths, and the cast record takes the step (R427). -/
def State.setRatio (s : State) (core : Nat) (r : BitVec 4) : State :=
  (s.modCore core (fun c => { c with ratio := r })).cast (clusterOf core) { cls := 0x07, cause := 0, core := core, data := r.setWidth 32 }

/-- 100 µs have passed since a time, if there was one. -/
def State.spaced (s : State) (t : Option Nat) : Bool := t.all (fun t => decide (t + 100000 ≤ s.now))

/-- RATIO_CHANGE (R427): at most once per 100 µs, within 4 to 8. -/
def execRatioChange (core : Nat) (ratio : BitVec 4) (s : State) : Host.Outcome State Fault Refusal :=
  s.event (decide (core < Config.cores) && decide (4 ≤ ratio.toNat) && decide (ratio.toNat ≤ 8) && s.spaced (s.core core).ratioAt)
    ((s.setRatio core ratio).modCore core (fun c => { c with ratioAt := some s.now }))

/-- THERMAL_STEP (R427): one ratio down, and again every 100 µs. -/
def execThermalStep (core : Nat) (s : State) : Host.Outcome State Fault Refusal :=
  s.event (decide (core < Config.cores) && decide (4 < (s.core core).ratio.toNat) && s.spaced (s.core core).thermalAt)
    ((s.setRatio core ((s.core core).ratio - 1)).modCore core (fun c => { c with thermalAt := some s.now }))

/-- LIMIT_HALVE (R427). -/
def execLimitHalve (cluster : Nat) (s : State) : Host.Outcome State Fault Refusal :=
  s.event (decide (cluster < Config.clusters) && !(s.cluster cluster).hot)
    ((s.modCluster cluster (fun c => { c with hot := true })).cast cluster { cls := 0x07, cause := 1 })

/-- LIMIT_RESTORE (R427, R432). -/
def execLimitRestore (cluster : Nat) (s : State) : Host.Outcome State Fault Refusal :=
  s.event ((s.cluster cluster).hot) ((s.modCluster cluster (fun c => { c with hot := false })).cast cluster { cls := 0x07, cause := 1 })

/-! ## Boot (R387, R418, R429–R431) -/

/-- The floor of a component. -/
def State.floor (s : State) : Component → Nat
  | .ecinzel => s.floors[0]
  | .control => s.floors[1]
  | .cluster => s.floors[2]

/-- A bundle passes the ROM's check: its signature, and every version at or above its floor. -/
def State.boots (s : State) (b : Bundle) : Bool :=
  b.signed && decide (s.floor .ecinzel ≤ b.ecinzel) && decide (s.floor .control ≤ b.control) && decide (s.floor .cluster ≤ b.cluster)

/-- A core after a boot: what MRAM keeps of it is applied (R418). -/
def Core.booted (c : Core) : Core :=
  { Core.reset with
    spares := c.spares
    retiredRows := c.retiredRows
    arrayRetired := c.arrayRetired
    retiredBanks := c.retiredBanks
    scratchSpare := c.scratchSpare
    scratchRetired := c.scratchRetired
    retired := c.retired
    failedSensors := c.failedSensors
    bankFaults := c.bankFaults
    rowFaults := c.rowFaults }

/-- A cluster after a boot; warm reset keeps the cast record (R422, R425). -/
def Cluster.booted (c : Cluster) (warm : Bool) (version now : Nat) : Cluster :=
  { Cluster.reset with
    cast := if warm then c.cast else []
    castHead := if warm then c.castHead else 0
    frozen := warm && c.frozen
    lanesRetired := c.lanesRetired
    banksRetired := c.banksRetired
    scratchSpare := c.scratchSpare
    scratchRetired := c.scratchRetired
    lastTest := now
    firmware := version }

/-- A port after a boot: its lanes' wear and retirements stay (R418, R421). -/
def Port.booted (p : Port) : Port := { Port.reset with lanes := p.lanes }

/-- The Ecinzel image that takes effect at this boot, if one is staged and passes the check (R431). -/
def State.stagedEcinzel (s : State) : Option Nat :=
  (s.staged.find? (fun i => i.component == .ecinzel && i.signed && decide (s.floor .ecinzel ≤ i.version))).map (fun i => i.version)

/-- The device before the boot ROM has a bundle: everything at reset but what MRAM, SRAM and the world outside keep. No firmware runs yet
(R429, R430). -/
def State.powered (s : State) (warm : Bool) (version : Nat) : State :=
  { State.reset with
    hostMem := s.hostMem
    badHost := s.badHost
    cores := s.cores.map Core.booted
    clusters := s.clusters.map (fun c => c.booted warm version s.now)
    parts := s.parts.map (fun p => { Partition.reset with recordKey := p.recordKey + 1 })
    ports := s.ports.map Port.booted
    splice := s.splice.booted
    epoch := s.epoch
    floors := s.floors
    staged := s.staged
    trim := s.trim
    now := s.now
    agenda := s.agenda
    deferred := s.deferred
    fresh := s.fresh
    nextId := s.nextId
    sent := s.sent }

/-- An update step enters a ring; those of the device and of a die enter that of cluster 0. -/
def State.castUpdate (s : State) (k step version : Nat) : State := s.cast k { cls := 0x0B, cause := step, data := BitVec.ofNat 32 version }

/-- The firmware of a bundle is started: the device has its ID from the fabric management (R378), and a staged Ecinzel image takes effect
(R431). -/
def State.started_ (s : State) (b : Bundle) : State :=
  let s1 : State := { s.draw with
    devState := .running
    devId := Config.deviceId s.fresh
    versions := #v[s.stagedEcinzel.getD b.ecinzel, b.control, b.control]
    staged := [] }
  match s.stagedEcinzel with
  | none => s1
  | some v => s1.castUpdate 0 1 v

/-- A boot (R429): MRAM's integrity, EPOCH, the first bundle of three servers that passes; else recovery. -/
def State.boot (s : State) (warm mramOk : Bool) (bundles : List Bundle) : State :=
  if !mramOk then { s.powered warm 0 with devState := .recovery }
  else
    match (bundles.take 3).find? s.boots with
    | none => { s.powered warm 0 with epoch := s.epoch + 1, devState := .recovery }
    | some b =>
      let s1 := { s.powered warm b.cluster with epoch := s.epoch + 1 }.started_ b
      if warm then s1 else { s1.draw with trim := Config.trimValue s1.fresh }

/-- COLD_RESET (R429). -/
def execColdReset (mramOk : Bool) (bundles : List Bundle) (s : State) : Host.Outcome State Fault Refusal := .next (s.boot false mramOk bundles)

/-- WARM_RESET (R429). -/
def execWarmReset (mramOk : Bool) (bundles : List Bundle) (s : State) : Host.Outcome State Fault Refusal := .next (s.boot true mramOk bundles)

/-! ## The cast record as it is read (R424) -/

/-- The numbers of an event, as they are signed. -/
def CastEvent.numbers (e : CastEvent) : List Nat :=
  [e.time, e.addr.toNat, e.data.toNat, e.ctxid.toNat, e.part, flagNat e.enc, e.core, e.wave, e.thread, e.cause, e.cls, e.seq.toNat]

/-- The ring and CASTHEAD of a cluster, signed. -/
def State.recordSent (s : State) (cluster : Nat) (session : Option (Nat × Nat)) : State :=
  let c := s.cluster cluster
  s.send (.record cluster c.castHead c.cast (Config.signature 1 (c.castHead.toNat :: c.cast.flatMap CastEvent.numbers)) session)

/-- CAST_RECORD_READ (R423, R424): the operator reads over the management port or the mailbox; a tenant inside a session with its TDI, where its
record key is released to it. -/
def execCastRecordRead (reading : CastReading) (s : State) : Host.Outcome State Fault Refusal :=
  s.event (decide (reading.cluster < Config.clusters) && s.devState != .booting)
    (match reading.session with
     | none => s.recordSent reading.cluster none
     | some (p, id) =>
       if s.served then
         s.inSession (.tdi p) id true
           ((s.recordSent reading.cluster (some (p.toNat, id))).send (.recordKey p.toNat id (s.part p.toNat).recordKey))
       else s)

/-! ## Firmware (R430, R431) -/

/-- An image that passes its check is staged; the control cores of its die switch to it (R431). -/
def State.stage (s : State) (i : FwImage) : State :=
  match i.component with
  | .ecinzel => ({ s with staged := i :: s.staged.filter (fun x => x.component != Component.ecinzel) }).castUpdate 0 0 i.version
  | .control =>
    ((({ s with versions := vmod s.versions (1 + i.place) (fun _ => i.version) }).castUpdate 0 0 i.version).castUpdate 0 1 i.version)
  | .cluster => (s.modCluster i.place (fun c => { c with staged := some i })).castUpdate i.place 0 i.version

/-- The place of an image exists. -/
def imagePlaced (i : FwImage) : Bool :=
  match i.component with
  | .ecinzel => true
  | .control => decide (i.place < 2)
  | .cluster => decide (i.place < Config.clusters)

/-- FIRMWARE_STAGE (R429–R431). -/
def execFirmwareStage (image : FwImage) (s : State) : Host.Outcome State Fault Refusal :=
  s.event (s.devState == .running && image.signed && decide (s.floor image.component ≤ image.version) && imagePlaced image) (s.stage image)

/-- The cluster's TDI stands in CONFIG_LOCKED or RUN (R431). -/
def State.clusterBusy (s : State) (k : Nat) : Bool :=
  (s.partOfCore (k * Config.coresPerCluster)).any (fun p => (s.part p).tdi == .locked || (s.part p).tdi == .run)

/-- FIRMWARE_APPLY (R431): on an idle cluster of a TDI outside CONFIG_LOCKED and RUN. -/
def execFirmwareApply (cluster : Nat) (s : State) : Host.Outcome State Fault Refusal :=
  match (s.cluster cluster).staged with
  | none => .next s
  | some i =>
    s.event (s.devState == .running && (s.residents cluster).isEmpty && !s.clusterBusy cluster)
      ((s.modCluster cluster (fun c => { c with firmware := i.version, staged := none })).castUpdate cluster 1 i.version)

/-- The component runs at a version. -/
def State.running_ (s : State) (c : Component) (v : Nat) : Bool :=
  match c with
  | .ecinzel => s.versions[0] == v
  | .control => s.versions[1] == v || s.versions[2] == v
  | .cluster => s.clusters.any (fun k => k.firmware == v)

/-- The place of a component's floor. -/
def componentIndex : Component → Nat
  | .ecinzel => 0 | .control => 1 | .cluster => 2

/-- FIRMWARE_COMMIT (R430): of a component that runs; a floor never falls. -/
def execFirmwareCommit (component : Component) (version : Nat) (signed : Bool) (s : State) : Host.Outcome State Fault Refusal :=
  s.event (s.devState == .running && signed && s.running_ component version && decide (s.floor component < version))
    (({ s with floors := vmod s.floors (componentIndex component) (fun f => max f version) }).castUpdate 0 2 version)

end Sys2Proof.Machine
end

