-- ==== Sys2Proof/Machine/Integer.lean ====
section
/-! DEFINITION. The integer and logic group (R102–R119). -/

namespace Sys2Proof.Machine

/-- NOP (R102): no state but the pc. -/
def execNop (_g : Guard) (s : State) : Host.Outcome State Fault Refusal := s.waveWord (fun h => h.w)

/-- MOV (R103); with D the two halves are two sources. -/
def execMov (g : Guard) (vd va : Reg) (d : Bool) (s : State) : Host.Outcome State Fault Refusal :=
  s.aluWord g (fun _ =>
    if d then ⟨[vd.toNat, vd.toNat + 1], [va.toNat, va.toNat + 1], true, tagMov, fun _ xs => ⟨[arg xs 0, arg xs 1], false, false⟩⟩
    else op1 vd [va] tagMov (fun xs => arg xs 0))

/-- MOVI (R104). -/
def execMovi (g : Guard) (vd : Reg) (imm : Word) (s : State) : Host.Outcome State Fault Refusal :=
  s.aluWord g (fun _ => op1 vd [] tagUniform (fun _ => imm))

/-- IADD, register form (R105). -/
def execIadd (g : Guard) (vd va vb : Reg) (sat u : Bool) (s : State) : Host.Outcome State Fault Refusal :=
  s.aluWord g (fun _ => op1 vd [va, vb] (tagAdd sat) (fun xs => iadd32 sat u (arg xs 0) (arg xs 1)))

/-- IADD, immediate form (R105). -/
def execIaddImmediate (g : Guard) (vd va : Reg) (imm : Word) (s : State) : Host.Outcome State Fault Refusal :=
  s.aluWord g (fun _ => op1 vd [va] (tagAdd false) (fun xs => iadd32 false false (arg xs 0) imm))

/-- ISUB (R105). -/
def execIsub (g : Guard) (vd va vb : Reg) (sat u : Bool) (s : State) : Host.Outcome State Fault Refusal :=
  s.aluWord g (fun _ => op1 vd [va, vb] (tagAdd sat) (fun xs => isub32 sat u (arg xs 0) (arg xs 1)))

/-- The 33-bit sum of IADDC for a thread of a wave (R106). -/
def iaddcSum (w : Wave) (pc : PredNo) (ci : Bool) (t : Lane) (a b : Word) : Nat :=
  a.toNat + b.toNat + (if ci && w.pred pc t then 1 else 0)

/-- IADDC (R106): the register and the carry predicate. -/
def execIaddc (g : Guard) (vd va vb : Reg) (pc : PredNo) (ci : Bool) (s : State) : Host.Outcome State Fault Refusal :=
  match s.here with
  | none => .fault .noIssuingSlot
  | some h =>
    let cov := h.w.cover h.k g
    let op : AluOp := ⟨[vd.toNat], [va.toNat, vb.toNat], !ci, tagNone,
      fun t xs => ⟨[BitVec.ofNat 32 (iaddcSum h.w pc ci t (arg xs 0) (arg xs 1))], false, false⟩⟩
    let carry := Mask.ofPred (fun t =>
      decide (2 ^ 32 ≤ iaddcSum h.w pc ci t (h.w.read va.toNat t) (h.w.read vb.toNat t)))
    .next (s.putWave h (((h.w.alu cov op).setPred pc cov carry).advance h.k))

/-- IMUL (R107). -/
def execImul (g : Guard) (vd va vb : Reg) (sat u : Bool) (s : State) : Host.Outcome State Fault Refusal :=
  s.aluWord g (fun _ => op1 vd [va, vb] (tagScale sat) (fun xs => imul32 sat u (arg xs 0) (arg xs 1)))

/-- IMULH (R107). -/
def execImulh (g : Guard) (vd va vb : Reg) (u : Bool) (s : State) : Host.Outcome State Fault Refusal :=
  s.aluWord g (fun _ => op1 vd [va, vb] tagNone (fun xs => imulh32 u (arg xs 0) (arg xs 1)))

/-- IMAD (R108). -/
def execImad (g : Guard) (vd va vb vc : Reg) (wide sat u : Bool) (s : State) : Host.Outcome State Fault Refusal :=
  s.aluWord g (fun _ =>
    if wide then ⟨[vd.toNat, vd.toNat + 1], [va.toNat, vb.toNat, vc.toNat, vc.toNat + 1], true, tagNone,
      fun _ xs => ⟨imadWide sat u (arg xs 0) (arg xs 1) (arg64 xs 2), false, false⟩⟩
    else op1 vd [va, vb, vc] tagUniform (fun xs => imad32 sat u (arg xs 0) (arg xs 1) (arg xs 2)))

/-- IMIN (R109). -/
def execImin (g : Guard) (vd va vb : Reg) (u : Bool) (s : State) : Host.Outcome State Fault Refusal :=
  s.aluWord g (fun _ => op1 vd [va, vb] tagUniform (fun xs => imin32 u (arg xs 0) (arg xs 1)))

/-- IMAX (R109). -/
def execImax (g : Guard) (vd va vb : Reg) (u : Bool) (s : State) : Host.Outcome State Fault Refusal :=
  s.aluWord g (fun _ => op1 vd [va, vb] tagUniform (fun xs => imax32 u (arg xs 0) (arg xs 1)))

/-- IABS (R110). -/
def execIabs (g : Guard) (vd va : Reg) (sat : Bool) (s : State) : Host.Outcome State Fault Refusal :=
  s.aluWord g (fun _ => op1 vd [va] tagUniform (fun xs => iabs32 sat (arg xs 0)))

/-- AND, register form (R111). -/
def execAnd (g : Guard) (vd va vb : Reg) (s : State) : Host.Outcome State Fault Refusal :=
  s.aluWord g (fun _ => op1 vd [va, vb] tagUniform (fun xs => arg xs 0 &&& arg xs 1))

/-- AND, immediate form (R111). -/
def execAndImmediate (g : Guard) (vd va : Reg) (imm : Word) (s : State) : Host.Outcome State Fault Refusal :=
  s.aluWord g (fun _ => op1 vd [va] tagUniform (fun xs => arg xs 0 &&& imm))

/-- OR, register form (R111). -/
def execOr (g : Guard) (vd va vb : Reg) (s : State) : Host.Outcome State Fault Refusal :=
  s.aluWord g (fun _ => op1 vd [va, vb] tagUniform (fun xs => arg xs 0 ||| arg xs 1))

/-- OR, immediate form (R111). -/
def execOrImmediate (g : Guard) (vd va : Reg) (imm : Word) (s : State) : Host.Outcome State Fault Refusal :=
  s.aluWord g (fun _ => op1 vd [va] tagUniform (fun xs => arg xs 0 ||| imm))

/-- XOR, register form (R111). -/
def execXor (g : Guard) (vd va vb : Reg) (s : State) : Host.Outcome State Fault Refusal :=
  s.aluWord g (fun _ => op1 vd [va, vb] tagUniform (fun xs => arg xs 0 ^^^ arg xs 1))

/-- XOR, immediate form (R111). -/
def execXorImmediate (g : Guard) (vd va : Reg) (imm : Word) (s : State) : Host.Outcome State Fault Refusal :=
  s.aluWord g (fun _ => op1 vd [va] tagUniform (fun xs => arg xs 0 ^^^ imm))

/-- BLUT (R112). -/
def execBlut (g : Guard) (vd va vb vc : Reg) (lut : BitVec 8) (s : State) : Host.Outcome State Fault Refusal :=
  s.aluWord g (fun _ => op1 vd [va, vb, vc] tagUniform (fun xs => blut32 lut (arg xs 0) (arg xs 1) (arg xs 2)))

/-- SHL (R113). -/
def execShl (g : Guard) (vd va vb : Reg) (cl : Bool) (s : State) : Host.Outcome State Fault Refusal :=
  s.aluWord g (fun _ => op1 vd [va, vb] (tagScale cl) (fun xs => shl32 cl (arg xs 0) (arg xs 1)))

/-- SHR (R113). -/
def execShr (g : Guard) (vd va vb : Reg) (cl : Bool) (s : State) : Host.Outcome State Fault Refusal :=
  s.aluWord g (fun _ => op1 vd [va, vb] tagUniform (fun xs => shr32 cl (arg xs 0) (arg xs 1)))

/-- SAR (R113). -/
def execSar (g : Guard) (vd va vb : Reg) (cl : Bool) (s : State) : Host.Outcome State Fault Refusal :=
  s.aluWord g (fun _ => op1 vd [va, vb] tagUniform (fun xs => sar32 cl (arg xs 0) (arg xs 1)))

/-- FSHL (R114). -/
def execFshl (g : Guard) (vd va vb vc : Reg) (cl : Bool) (s : State) : Host.Outcome State Fault Refusal :=
  s.aluWord g (fun _ => op1 vd [va, vb, vc] tagUniform (fun xs => fshl32 cl (arg xs 0) (arg xs 1) (arg xs 2)))

/-- FSHR (R114). -/
def execFshr (g : Guard) (vd va vb vc : Reg) (cl : Bool) (s : State) : Host.Outcome State Fault Refusal :=
  s.aluWord g (fun _ => op1 vd [va, vb, vc] tagUniform (fun xs => fshr32 cl (arg xs 0) (arg xs 1) (arg xs 2)))

/-- BFE (R115). -/
def execBfe (g : Guard) (vd va vb : Reg) (u : Bool) (s : State) : Host.Outcome State Fault Refusal :=
  s.aluWord g (fun _ => op1 vd [va, vb] tagUniform (fun xs => bfe32 u (arg xs 0) (arg xs 1)))

/-- BFI (R115). -/
def execBfi (g : Guard) (vd va vb vc : Reg) (s : State) : Host.Outcome State Fault Refusal :=
  s.aluWord g (fun _ => op1 vd [va, vb, vc] tagUniform (fun xs => bfi32 (arg xs 0) (arg xs 1) (arg xs 2)))

/-- POPC (R116). -/
def execPopc (g : Guard) (vd va : Reg) (s : State) : Host.Outcome State Fault Refusal :=
  s.aluWord g (fun _ => op1 vd [va] tagUniform (fun xs => popc32 (arg xs 0)))

/-- CLZ (R116). -/
def execClz (g : Guard) (vd va : Reg) (s : State) : Host.Outcome State Fault Refusal :=
  s.aluWord g (fun _ => op1 vd [va] tagUniform (fun xs => clz32 (arg xs 0)))

/-- BREV (R116). -/
def execBrev (g : Guard) (vd va : Reg) (s : State) : Host.Outcome State Fault Refusal :=
  s.aluWord g (fun _ => op1 vd [va] tagUniform (fun xs => brev32 (arg xs 0)))

/-- ICMP (R117). -/
def execIcmp (g : Guard) (pd : PredNo) (va vb : Reg) (pc : PredNo) (cond : ICond) (comb : Comb) (d u : Bool) (s : State) :
    Host.Outcome State Fault Refusal :=
  s.waveWord (fun h =>
    h.w.setPred pd (h.w.cover h.k g) (Mask.ofPred (fun t =>
      let r :=
        if d then icmpInt cond (intOf64 u (h.w.read64 va.toNat t)) (intOf64 u (h.w.read64 vb.toNat t))
        else icmpInt cond (intOf u (h.w.read va.toNat t)) (intOf u (h.w.read vb.toNat t))
      combine comb r (h.w.pred pc t))))

/-- SEL (R118): a predicate operand, so the result never keeps its sources' entries (R38). -/
def execSel (g : Guard) (vd va vb : Reg) (pc : PredNo) (s : State) : Host.Outcome State Fault Refusal :=
  s.aluWord g (fun h =>
    ⟨[vd.toNat], [va.toNat, vb.toNat], false, tagNone, fun t xs => ⟨[if h.w.pred pc t then arg xs 0 else arg xs 1], false, false⟩⟩)

/-- BPERM (R119). -/
def execBperm (g : Guard) (vd va vb vc : Reg) (s : State) : Host.Outcome State Fault Refusal :=
  s.aluWord g (fun _ => op1 vd [va, vb, vc] tagUniform (fun xs => bperm32 (arg xs 0) (arg xs 1) (arg xs 2)))

end Sys2Proof.Machine
end

