-- ==== Sys2Proof/Machine/Ternary.lean ====
section
/-! DEFINITION. Packing of trits, and shape records (R200, R201, R216). -/

namespace Sys2Proof.Machine

/-- A per-thread word on one register that raises TRIT_CODE for the covered threads whose value is bad (R200, R201). -/
def State.tritWord (s : State) (g : Guard) (vd va : Reg) (bad : Word → Bool) (f : Word → Word) : Host.Outcome State Fault Refusal :=
  s.word (fun h =>
    let cov := h.cov g
    let no := Mask.ofPred (fun t => Mask.has cov t && bad (h.w.read va.toNat t))
    if no ≠ 0 then .error (Trap.named h.w .tritCode no va.toNat 0)
    else .ok (s.putWave h ((h.w.writeLanes cov vd.toNat .none (fun t => f (h.w.read va.toNat t))).advance h.k)))

/-- A value's byte. -/
def wordByte (x : Word) (i : Nat) : Byte := x.extractLsb' (8 * i) 8

/-- TRPK of one thread. -/
def trpk32 (x : Word) : Word :=
  BitVec.ofNat 32 ((List.range 4).foldl (fun n b =>
    n + t5Byte (((List.range 5).filter (fun i => decide (5 * b + i < 16))).map (fun i => codeTrit (Machine.tritCode x (5 * b + i)))) * 256 ^ b) 0)

/-- TRUPK of one thread. -/
def trupk32 (x : Word) : Word :=
  let bs := (List.range 4).map (wordByte x)
  BitVec.ofNat 32 ((List.range 16).foldl (fun n i => n + tritBits (t5Trit bs i) * 4 ^ i) 0)

/-- A byte that is no T5 byte. -/
def badT5 (x : Word) : Bool := (List.range 4).any (fun i => decide (243 ≤ (wordByte x i).toNat))

/-- The mask of a block's nonzeros. -/
def blockMask (x : Word) : Nat := (List.range 16).foldl (fun n i => n + (if Machine.tritCode x i = 0 then 0 else 2 ^ i)) 0

/-- A block that has no T24S word. -/
def badBlock (x : Word) : Bool := badTrits x || !t24Masks.contains (blockMask x)

/-- TRSPK of one thread. -/
def trspk32 (x : Word) : Word :=
  let m := blockMask x
  let signs := (List.range 16).foldl (fun n i => n + (if Machine.tritCode x i = 3 then 2 ^ maskRank m i else 0)) 0
  BitVec.ofNat 32 ((t24Masks.findIdx? (fun y => y == m)).getD 0 + 128 * signs)

/-- TRSUPK of one thread. -/
def trsupk32 (x : Word) : Word :=
  BitVec.ofNat 32 ((List.range 16).foldl (fun n i => n + tritBits (t24Trit (x.toNat % 2 ^ 15) (i / 4) (i % 4)) * 4 ^ i) 0)

/-- TRPK (R200). -/
def execTrpk (g : Guard) (vd va : Reg) (s : State) : Host.Outcome State Fault Refusal := s.tritWord g vd va badTrits trpk32

/-- TRUPK (R200). -/
def execTrupk (g : Guard) (vd va : Reg) (s : State) : Host.Outcome State Fault Refusal := s.tritWord g vd va badT5 trupk32

/-- TRSPK (R201). -/
def execTrspk (g : Guard) (vd va : Reg) (s : State) : Host.Outcome State Fault Refusal := s.tritWord g vd va badBlock trspk32

/-- TRSUPK (R201). -/
def execTrsupk (g : Guard) (vd va : Reg) (s : State) : Host.Outcome State Fault Refusal :=
  s.tritWord g vd va (fun x => decide (90 ≤ x.toNat % 128)) trsupk32

/-- The image QSET reads: word j of thread j, 0 of an exited or dead one (R216). -/
def Wave.shapeImage (w : Wave) (va : Nat) : BitVec 512 :=
  BitVec.ofNat 512 ((List.range 16).foldl (fun n j =>
    let t : Lane := laneOf j
    n + (if Mask.has w.alive t then (w.read va t).toNat else 0) * 2 ^ (32 * j)) 0)

/-- A shape record replaced. -/
def Group.setShape (g : Group) (q : BitVec 4) (r : BitVec 512) : Group := { g with shapes := vmod g.shapes q.toNat (fun _ => r) }

/-- QSET (R216). One that raises ENGINE_SHAPE has set DEADSRC all the same where a dead thread would supply a value (log entry 73). -/
def execQset (g : Guard) (q : BitVec 4) (va : Reg) (s : State) : Host.Outcome State Fault Refusal :=
  s.act (fun h =>
    let cov := h.cov g
    let r := h.w.shapeImage va.toNat
    let w := { h.w with deadsrc := h.w.deadsrc || h.w.dead &&& 0xFFFF != 0 }
    if cov = 0 then s.goesOn h
    else if shapeBad r then (s.putWave h w).takeTrap h (Trap.named h.w .engineShape cov va.toNat 0)
    else s.modGroup h.ctx (fun x => (x.setWave h.wv (w.advance h.k)).setShape q r))

/-- QGET (R216). -/
def execQget (g : Guard) (vd : Reg) (q : BitVec 4) (s : State) : Host.Outcome State Fault Refusal :=
  s.waveWord (fun h => h.w.writeLanes (h.cov g) vd.toNat .none (fun t => (vget h.g.shapes q.toNat 0).extractLsb' (32 * (t.val % 16)) 32))

end Sys2Proof.Machine
end

