-- ==== Sys2Proof/Machine/Dispatch.lean ====
section
/-! DEFINITION. One arm for each constructor of Instr: a direct call of its meaning. -/

namespace Sys2Proof.Machine

def exec (i : Instr) (s : State) : Host.Outcome State Fault Refusal :=
  match i with
  | .nop g => Sys2Proof.Machine.execNop g s
  | .mov g vd va d => Sys2Proof.Machine.execMov g vd va d s
  | .movi g vd imm => Sys2Proof.Machine.execMovi g vd imm s
  | .iadd g vd va vb sat u => Sys2Proof.Machine.execIadd g vd va vb sat u s
  | .iaddImmediate g vd va imm => Sys2Proof.Machine.execIaddImmediate g vd va imm s
  | .isub g vd va vb sat u => Sys2Proof.Machine.execIsub g vd va vb sat u s
  | .iaddc g vd va vb pc ci => Sys2Proof.Machine.execIaddc g vd va vb pc ci s
  | .imul g vd va vb sat u => Sys2Proof.Machine.execImul g vd va vb sat u s
  | .imulh g vd va vb u => Sys2Proof.Machine.execImulh g vd va vb u s
  | .imad g vd va vb vc wide sat u => Sys2Proof.Machine.execImad g vd va vb vc wide sat u s
  | .imin g vd va vb u => Sys2Proof.Machine.execImin g vd va vb u s
  | .imax g vd va vb u => Sys2Proof.Machine.execImax g vd va vb u s
  | .iabs g vd va sat => Sys2Proof.Machine.execIabs g vd va sat s
  | .and g vd va vb => Sys2Proof.Machine.execAnd g vd va vb s
  | .andImmediate g vd va imm => Sys2Proof.Machine.execAndImmediate g vd va imm s
  | .or g vd va vb => Sys2Proof.Machine.execOr g vd va vb s
  | .orImmediate g vd va imm => Sys2Proof.Machine.execOrImmediate g vd va imm s
  | .xor g vd va vb => Sys2Proof.Machine.execXor g vd va vb s
  | .xorImmediate g vd va imm => Sys2Proof.Machine.execXorImmediate g vd va imm s
  | .blut g vd va vb vc lut => Sys2Proof.Machine.execBlut g vd va vb vc lut s
  | .shl g vd va vb cl => Sys2Proof.Machine.execShl g vd va vb cl s
  | .shr g vd va vb cl => Sys2Proof.Machine.execShr g vd va vb cl s
  | .sar g vd va vb cl => Sys2Proof.Machine.execSar g vd va vb cl s
  | .fshl g vd va vb vc cl => Sys2Proof.Machine.execFshl g vd va vb vc cl s
  | .fshr g vd va vb vc cl => Sys2Proof.Machine.execFshr g vd va vb vc cl s
  | .bfe g vd va vb u => Sys2Proof.Machine.execBfe g vd va vb u s
  | .bfi g vd va vb vc => Sys2Proof.Machine.execBfi g vd va vb vc s
  | .popc g vd va => Sys2Proof.Machine.execPopc g vd va s
  | .clz g vd va => Sys2Proof.Machine.execClz g vd va s
  | .brev g vd va => Sys2Proof.Machine.execBrev g vd va s
  | .icmp g pd va vb pc cond comb d u => Sys2Proof.Machine.execIcmp g pd va vb pc cond comb d u s
  | .sel g vd va vb pc => Sys2Proof.Machine.execSel g vd va vb pc s
  | .bperm g vd va vb vc => Sys2Proof.Machine.execBperm g vd va vb vc s
  | .fadd g vd va vb rnd => Sys2Proof.Machine.execFadd g vd va vb rnd s
  | .fsub g vd va vb rnd => Sys2Proof.Machine.execFsub g vd va vb rnd s
  | .fmul g vd va vb rnd => Sys2Proof.Machine.execFmul g vd va vb rnd s
  | .ffma g vd va vb vc rnd => Sys2Proof.Machine.execFfma g vd va vb vc rnd s
  | .fmin g vd va vb => Sys2Proof.Machine.execFmin g vd va vb s
  | .fmax g vd va vb => Sys2Proof.Machine.execFmax g vd va vb s
  | .fcmp g pd va vb pc cond comb => Sys2Proof.Machine.execFcmp g pd va vb pc cond comb s
  | .frcp g vd va rnd => Sys2Proof.Machine.execFrcp g vd va rnd s
  | .frsq g vd va rnd => Sys2Proof.Machine.execFrsq g vd va rnd s
  | .fsqrt g vd va rnd => Sys2Proof.Machine.execFsqrt g vd va rnd s
  | .fexp2 g vd va rnd => Sys2Proof.Machine.execFexp2 g vd va rnd s
  | .flog2 g vd va rnd => Sys2Proof.Machine.execFlog2 g vd va rnd s
  | .fclass g vd va => Sys2Proof.Machine.execFclass g vd va s
  | .pkadd g vd va vb h rnd => Sys2Proof.Machine.execPkadd g vd va vb h rnd s
  | .pkmul g vd va vb h rnd => Sys2Proof.Machine.execPkmul g vd va vb h rnd s
  | .pkfma g vd va vb vc h rnd => Sys2Proof.Machine.execPkfma g vd va vb vc h rnd s
  | .cvt g vd va rnd hs dst src sat => Sys2Proof.Machine.execCvt g vd va rnd hs dst src sat s
  | .bxpk g vd va fmt rnd => Sys2Proof.Machine.execBxpk g vd va fmt rnd s
  | .bxupk g vd va fmt => Sys2Proof.Machine.execBxupk g vd va fmt s
  | .pairMov x y => Sys2Proof.Machine.execPairMov x y s
  | .pairIadd x y => Sys2Proof.Machine.execPairIadd x y s
  | .pairIsub x y => Sys2Proof.Machine.execPairIsub x y s
  | .pairImul x y => Sys2Proof.Machine.execPairImul x y s
  | .pairIminS x y => Sys2Proof.Machine.execPairIminS x y s
  | .pairImaxS x y => Sys2Proof.Machine.execPairImaxS x y s
  | .pairIminU x y => Sys2Proof.Machine.execPairIminU x y s
  | .pairImaxU x y => Sys2Proof.Machine.execPairImaxU x y s
  | .pairAnd x y => Sys2Proof.Machine.execPairAnd x y s
  | .pairOr x y => Sys2Proof.Machine.execPairOr x y s
  | .pairXor x y => Sys2Proof.Machine.execPairXor x y s
  | .pairShl x y => Sys2Proof.Machine.execPairShl x y s
  | .pairShr x y => Sys2Proof.Machine.execPairShr x y s
  | .pairSar x y => Sys2Proof.Machine.execPairSar x y s
  | .pairPopc x y => Sys2Proof.Machine.execPairPopc x y s
  | .pairClz x y => Sys2Proof.Machine.execPairClz x y s
  | .pairFadd x y => Sys2Proof.Machine.execPairFadd x y s
  | .pairFsub x y => Sys2Proof.Machine.execPairFsub x y s
  | .pairFmul x y => Sys2Proof.Machine.execPairFmul x y s
  | .pairFmin x y => Sys2Proof.Machine.execPairFmin x y s
  | .pairFmax x y => Sys2Proof.Machine.execPairFmax x y s
  | .pairPkaddBf x y => Sys2Proof.Machine.execPairPkaddBf x y s
  | .pairPkmulBf x y => Sys2Proof.Machine.execPairPkmulBf x y s
  | .shfl g vd vs vb wid z => Sys2Proof.Machine.execShfl g vd vs vb wid z s
  | .shflx g vd vs wid k => Sys2Proof.Machine.execShflx g vd vs wid k s
  | .shflup g vd vs wid k => Sys2Proof.Machine.execShflup g vd vs wid k s
  | .shfldn g vd vs wid k => Sys2Proof.Machine.execShfldn g vd vs wid k s
  | .bcast g vd vs wid k => Sys2Proof.Machine.execBcast g vd vs wid k s
  | .lxpose g vd vs rows => Sys2Proof.Machine.execLxpose g vd vs rows s
  | .compact g vd vs pc => Sys2Proof.Machine.execCompact g vd vs pc s
  | .expand g vd vs pc => Sys2Proof.Machine.execExpand g vd vs pc s
  | .relay g vd => Sys2Proof.Machine.execRelay g vd s
  | .layrd g vd va b => Sys2Proof.Machine.execLayrd g vd va b s
  | .laywr g vd va => Sys2Proof.Machine.execLaywr g vd va s
  | .voteBallot g vd pc => Sys2Proof.Machine.execVoteBallot g vd pc s
  | .voteAny g pd pc => Sys2Proof.Machine.execVoteAny g pd pc s
  | .voteAll g pd pc => Sys2Proof.Machine.execVoteAll g pd pc s
  | .voteEq g pd pc => Sys2Proof.Machine.execVoteEq g pd pc s
  | .gred g vd va op wid rnd => Sys2Proof.Machine.execGred g vd va op wid rnd s
  | .gscan g vd va op wid rnd exc => Sys2Proof.Machine.execGscan g vd va op wid rnd exc s
  | .matchv g vd va all d => Sys2Proof.Machine.execMatchv g vd va all d s
  | .bra g tgt join => Sys2Proof.Machine.execBra g tgt join s
  | .braAny g tgt => Sys2Proof.Machine.execBraAny g tgt s
  | .brx g va => Sys2Proof.Machine.execBrx g va s
  | .join => Sys2Proof.Machine.execJoin s
  | .call g tgt => Sys2Proof.Machine.execCall g tgt s
  | .ret g => Sys2Proof.Machine.execRet g s
  | .exit g => Sys2Proof.Machine.execExit g s
  | .yield g => Sys2Proof.Machine.execYield g s
  | .setexP g pc => Sys2Proof.Machine.execSetexP g pc s
  | .setexV g va => Sys2Proof.Machine.execSetexV g va s
  | .setexRst => Sys2Proof.Machine.execSetexRst s
  | .getex g vd h => Sys2Proof.Machine.execGetex g vd h s
  | .plop g pd pa pb pc lut => Sys2Proof.Machine.execPlop g pd pa pb pc lut s
  | .p2v g vd => Sys2Proof.Machine.execP2v g vd s
  | .v2p g va mask => Sys2Proof.Machine.execV2p g va mask s
  | .spawn g va vb vc => Sys2Proof.Machine.execSpawn g va vb vc s
  | .ld g vd va m off => Sys2Proof.Machine.execLd g vd va m off s
  | .st g vd va m off => Sys2Proof.Machine.execSt g vd va m off s
  | .lds g vd va m off => Sys2Proof.Machine.execLds g vd va m off s
  | .sts g vd va m off => Sys2Proof.Machine.execSts g vd va m off s
  | .ldu g vd va vb m off => Sys2Proof.Machine.execLdu g vd va vb m off s
  | .stu g vd va vb m off => Sys2Proof.Machine.execStu g vd va vb m off s
  | .ld2s g vd va vb m off => Sys2Proof.Machine.execLd2s g vd va vb m off s
  | .pref g va hint off => Sys2Proof.Machine.execPref g va hint off s
  | .cmaintDrop g va off => Sys2Proof.Machine.execCmaintDrop g va off s
  | .cmaintDropall g => Sys2Proof.Machine.execCmaintDropall g s
  | .cmaintClean g va off => Sys2Proof.Machine.execCmaintClean g va off s
  | .cmaintFlush g va off => Sys2Proof.Machine.execCmaintFlush g va off s
  | .atom g vd va vb a off => Sys2Proof.Machine.execAtom g vd va vb a off s
  | .red g va vb a off => Sys2Proof.Machine.execRed g va vb a off s
  | .cas g vd va vb a off => Sys2Proof.Machine.execCas g vd va vb a off s
  | .fence g order scope => Sys2Proof.Machine.execFence g order scope s
  | .mscmd g vd va off => Sys2Proof.Machine.execMscmd g vd va off s
  | .barSync g vd va level index fuse => Sys2Proof.Machine.execBarSync g vd va level index fuse s
  | .barArr g level index => Sys2Proof.Machine.execBarArr g level index s
  | .barWait g level index => Sys2Proof.Machine.execBarWait g level index s
  | .barExp g va index => Sys2Proof.Machine.execBarExp g va index s
  | .bartx g va index arr => Sys2Proof.Machine.execBartx g va index arr s
  | .cpyLin g vd va vb c ss ds => Sys2Proof.Machine.execCpyLin g vd va vb c ss ds s
  | .cpyTld g vd va q c => Sys2Proof.Machine.execCpyTld g vd va q c s
  | .cpyTst g vd va q c => Sys2Proof.Machine.execCpyTst g vd va q c s
  | .cpyTred g vd va q c => Sys2Proof.Machine.execCpyTred g vd va q c s
  | .publ g va => Sys2Proof.Machine.execPubl g va s
  | .cpywp g vd ch => Sys2Proof.Machine.execCpywp g vd ch s
  | .cpywt g ch => Sys2Proof.Machine.execCpywt g ch s
  | .cpymc g vd va vb vc op c => Sys2Proof.Machine.execCpymc g vd va vb vc op c s
  | .coll g va tag => Sys2Proof.Machine.execColl g va tag s
  | .collwt g tag => Sys2Proof.Machine.execCollwt g tag s
  | .wvsel g va => Sys2Proof.Machine.execWvsel g va s
  | .trpk g vd va => Sys2Proof.Machine.execTrpk g vd va s
  | .trupk g vd va => Sys2Proof.Machine.execTrupk g vd va s
  | .trspk g vd va => Sys2Proof.Machine.execTrspk g vd va s
  | .trsupk g vd va => Sys2Proof.Machine.execTrsupk g vd va s
  | .tld g vd va vb vc nn nk west => Sys2Proof.Machine.execTld g vd va vb vc nn nk west s
  | .mma g vd va vb vc tile => Sys2Proof.Machine.execMma g vd va vb vc tile s
  | .mmas g va vb vc kc nt tile => Sys2Proof.Machine.execMmas g va vb vc kc nt tile s
  | .mmag g vd va vb vc kc nt tile => Sys2Proof.Machine.execMmag g vd va vb vc kc nt tile s
  | .aclr g vc tile => Sys2Proof.Machine.execAclr g vc tile s
  | .adrain g va q vc add tile => Sys2Proof.Machine.execAdrain g va q vc add tile s
  | .ard g vd va vc raw tile => Sys2Proof.Machine.execArd g vd va vc raw tile s
  | .mfence g vd => Sys2Proof.Machine.execMfence g vd s
  | .mwait g va => Sys2Proof.Machine.execMwait g va s
  | .mwaitAll g => Sys2Proof.Machine.execMwaitAll g s
  | .achk g vd vc tile => Sys2Proof.Machine.execAchk g vd vc tile s
  | .aflip g va tile => Sys2Proof.Machine.execAflip g va tile s
  | .qset g q va => Sys2Proof.Machine.execQset g q va s
  | .qget g vd q => Sys2Proof.Machine.execQget g vd q s
  | .trap g code => Sys2Proof.Machine.execTrap g code s
  | .bpt g code => Sys2Proof.Machine.execBpt g code s
  | .rtt g => Sys2Proof.Machine.execRtt g s
  | .rttKill g => Sys2Proof.Machine.execRttKill g s
  | .sysrd g vd n => Sys2Proof.Machine.execSysrd g vd n s
  | .syswr g va n => Sys2Proof.Machine.execSyswr g va n s
  | .preemptOff g => Sys2Proof.Machine.execPreemptOff g s
  | .preemptOn g => Sys2Proof.Machine.execPreemptOn g s
  | .evrec g va code => Sys2Proof.Machine.execEvrec g va code s
  | .halt g => Sys2Proof.Machine.execHalt g s
  | .sleep g n => Sys2Proof.Machine.execSleep g n s
  | .icinv g va all => Sys2Proof.Machine.execIcinv g va all s
  | .genbump g vd va => Sys2Proof.Machine.execGenbump g vd va s
  | .tlbinv g va asid all => Sys2Proof.Machine.execTlbinv g va asid all s
  | .stest g vd unit => Sys2Proof.Machine.execStest g vd unit s
  | .lsupd g vd n => Sys2Proof.Machine.execLsupd g vd n s
  | .issue core part => Sys2Proof.Machine.execIssue core part s
  | .starvation slot => Sys2Proof.Machine.execStarvation slot s
  | .sleepExpiry slot => Sys2Proof.Machine.execSleepExpiry slot s
  | .binTimerExpiry core bin => Sys2Proof.Machine.execBinTimerExpiry core bin s
  | .binLaunch core bin => Sys2Proof.Machine.execBinLaunch core bin s
  | .memoryRequestArrival core req => Sys2Proof.Machine.execMemoryRequestArrival core req s
  | .loadDataDelivery core req => Sys2Proof.Machine.execLoadDataDelivery core req s
  | .faultRecord core entry => Sys2Proof.Machine.execFaultRecord core entry s
  | .parkedWordGiveUp core entry => Sys2Proof.Machine.execParkedWordGiveUp core entry s
  | .haltArrival ctx wave => Sys2Proof.Machine.execHaltArrival ctx wave s
  | .siblingStop ctx wave => Sys2Proof.Machine.execSiblingStop ctx wave s
  | .handlerEntry ctx => Sys2Proof.Machine.execHandlerEntry ctx s
  | .strike core => Sys2Proof.Machine.execStrike core s
  | .rollbackResume core => Sys2Proof.Machine.execRollbackResume core s
  | .matrixOrderBegin core => Sys2Proof.Machine.execMatrixOrderBegin core s
  | .shadowReady core => Sys2Proof.Machine.execShadowReady core s
  | .mmagGroupStart core => Sys2Proof.Machine.execMmagGroupStart core s
  | .occupancyEnd core => Sys2Proof.Machine.execOccupancyEnd core s
  | .matrixComplete core => Sys2Proof.Machine.execMatrixComplete core s
  | .drainBufferFree core buf => Sys2Proof.Machine.execDrainBufferFree core buf s
  | .batchRetire ctx wave => Sys2Proof.Machine.execBatchRetire ctx wave s
  | .copyChunk core cmd => Sys2Proof.Machine.execCopyChunk core cmd s
  | .ld2sDelivery core req => Sys2Proof.Machine.execLd2sDelivery core req s
  | .reservationGrant cluster => Sys2Proof.Machine.execReservationGrant cluster s
  | .chargeExpiry cluster => Sys2Proof.Machine.execChargeExpiry cluster s
  | .arbiterAging cluster => Sys2Proof.Machine.execArbiterAging cluster s
  | .doorbell part value trusted => Sys2Proof.Machine.execDoorbell part value trusted s
  | .genreq part value trusted => Sys2Proof.Machine.execGenreq part value trusted s
  | .faultdbWrite part value trusted => Sys2Proof.Machine.execFaultdbWrite part value trusted s
  | .registerWrite page offset value trusted => Sys2Proof.Machine.execRegisterWrite page offset value trusted s
  | .pwrlimWrite value => Sys2Proof.Machine.execPwrlimWrite value s
  | .testpolWrite value => Sys2Proof.Machine.execTestpolWrite value s
  | .thaw value => Sys2Proof.Machine.execThaw value s
  | .decisionPoint part => Sys2Proof.Machine.execDecisionPoint part s
  | .gangPlaced part gang => Sys2Proof.Machine.execGangPlaced part gang s
  | .priorityAging launch => Sys2Proof.Machine.execPriorityAging launch s
  | .workGroupEnd ctx => Sys2Proof.Machine.execWorkGroupEnd ctx s
  | .launchComplete launch => Sys2Proof.Machine.execLaunchComplete launch s
  | .graphChildStart launch child => Sys2Proof.Machine.execGraphChildStart launch child s
  | .engineStopAck ctx cls => Sys2Proof.Machine.execEngineStopAck ctx cls s
  | .preemptionComplete part => Sys2Proof.Machine.execPreemptionComplete part s
  | .preemptBudgetExpiry ctx => Sys2Proof.Machine.execPreemptBudgetExpiry ctx s
  | .remoteStopTimeout ctx => Sys2Proof.Machine.execRemoteStopTimeout ctx s
  | .genBumpComplete asid => Sys2Proof.Machine.execGenBumpComplete asid s
  | .fabricRequest port req => Sys2Proof.Machine.execFabricRequest port req s
  | .fabricReply rep => Sys2Proof.Machine.execFabricReply rep s
  | .retransmitTimeout op => Sys2Proof.Machine.execRetransmitTimeout op s
  | .operationAgeExpiry op => Sys2Proof.Machine.execOperationAgeExpiry op s
  | .cleatEntryAge port pair serial => Sys2Proof.Machine.execCleatEntryAge port pair serial s
  | .watermarkQuery ask port => Sys2Proof.Machine.execWatermarkQuery ask port s
  | .watermarkAnswer port pair told => Sys2Proof.Machine.execWatermarkAnswer port pair told s
  | .cleatAbandon port pair serial => Sys2Proof.Machine.execCleatAbandon port pair serial s
  | .pairForget port pair => Sys2Proof.Machine.execPairForget port pair s
  | .flitCrcFail port lane => Sys2Proof.Machine.execFlitCrcFail port lane s
  | .rateStepDown port => Sys2Proof.Machine.execRateStepDown port s
  | .laneRetrainEnd port => Sys2Proof.Machine.execLaneRetrainEnd port s
  | .rateStepUp port => Sys2Proof.Machine.execRateStepUp port s
  | .sprayResend slices => Sys2Proof.Machine.execSprayResend slices s
  | .braidReady coll => Sys2Proof.Machine.execBraidReady coll s
  | .collComplete coll => Sys2Proof.Machine.execCollComplete coll s
  | .hostBar4Access part addr write size trusted => Sys2Proof.Machine.execHostBar4Access part addr write size trusted s
  | .getVersion who => Sys2Proof.Machine.execGetVersion who s
  | .getCapabilities who => Sys2Proof.Machine.execGetCapabilities who s
  | .negotiateAlgorithms who => Sys2Proof.Machine.execNegotiateAlgorithms who s
  | .getDigests who => Sys2Proof.Machine.execGetDigests who s
  | .getCertificate who => Sys2Proof.Machine.execGetCertificate who s
  | .challenge who nonce => Sys2Proof.Machine.execChallenge who nonce s
  | .getMeasurements who index => Sys2Proof.Machine.execGetMeasurements who index s
  | .keyExchange who requester => Sys2Proof.Machine.execKeyExchange who requester s
  | .finish who session => Sys2Proof.Machine.execFinish who session s
  | .heartbeat who session => Sys2Proof.Machine.execHeartbeat who session s
  | .keyUpdate who session => Sys2Proof.Machine.execKeyUpdate who session s
  | .endSession who session => Sys2Proof.Machine.execEndSession who session s
  | .tdiLock part session => Sys2Proof.Machine.execTdiLock part session s
  | .tdiStart part session => Sys2Proof.Machine.execTdiStart part session s
  | .stopInterface part session => Sys2Proof.Machine.execStopInterface part session s
  | .partitionConfig part cfg => Sys2Proof.Machine.execPartitionConfig part cfg s
  | .partitionReset part => Sys2Proof.Machine.execPartitionReset part s
  | .partitionResetEnd part => Sys2Proof.Machine.execPartitionResetEnd part s
  | .correctedError unit => Sys2Proof.Machine.execCorrectedError unit s
  | .selfTestEnd unit => Sys2Proof.Machine.execSelfTestEnd unit s
  | .registerBankRetire core part bank => Sys2Proof.Machine.execRegisterBankRetire core part bank s
  | .spareRowEntry core row => Sys2Proof.Machine.execSpareRowEntry core row s
  | .inFieldTestDue cluster => Sys2Proof.Machine.execInFieldTestDue cluster s
  | .inFieldTestStart cluster => Sys2Proof.Machine.execInFieldTestStart cluster s
  | .inFieldTestEnd cluster => Sys2Proof.Machine.execInFieldTestEnd cluster s
  | .supplySag cluster deep => Sys2Proof.Machine.execSupplySag cluster deep s
  | .sagRecoveryStep cluster => Sys2Proof.Machine.execSagRecoveryStep cluster s
  | .ratioChange core ratio => Sys2Proof.Machine.execRatioChange core ratio s
  | .thermalStep core => Sys2Proof.Machine.execThermalStep core s
  | .limitHalve cluster => Sys2Proof.Machine.execLimitHalve cluster s
  | .fatalError cause => Sys2Proof.Machine.execFatalError cause s
  | .coldReset mramOk bundles => Sys2Proof.Machine.execColdReset mramOk bundles s
  | .warmReset mramOk bundles => Sys2Proof.Machine.execWarmReset mramOk bundles s
  | .castRecordRead reading => Sys2Proof.Machine.execCastRecordRead reading s
  | .firmwareStage image => Sys2Proof.Machine.execFirmwareStage image s
  | .firmwareApply cluster => Sys2Proof.Machine.execFirmwareApply cluster s
  | .firmwareCommit component version signed => Sys2Proof.Machine.execFirmwareCommit component version signed s
  | .supplyRecovery cluster => Sys2Proof.Machine.execSupplyRecovery cluster s
  | .limitRestore cluster => Sys2Proof.Machine.execLimitRestore cluster s
  | .uncorrectableError unit place => Sys2Proof.Machine.execUncorrectableError unit place s
  | .debugAgentResume ctx kill => Sys2Proof.Machine.execDebugAgentResume ctx kill s
  | .effectLeavesCore core req => Sys2Proof.Machine.execEffectLeavesCore core req s
  | .linkKeyUpdate part window outbound => Sys2Proof.Machine.execLinkKeyUpdate part window outbound s
  | .ctxidReuseDelayEnd ctxid => Sys2Proof.Machine.execCtxidReuseDelayEnd ctxid s

end Sys2Proof.Machine
end

