-- ==== Sys2Proof/Machine/Issue.lean ====
section
/-! DEFINITION. What a step does around an instruction: the issue of a word, the core's history for strikes, and what moves next
(R14, R87, R88, R242, R248, R249, R299, R303, R306, R307; log entries 1–3). -/

namespace Sys2Proof.Machine

/-! ## The lay table (R36, R37, R249, R250) -/

/-- Some register that uses an entry has a pending access. -/
def State.layPending (s : State) (c p : Nat) (l : LocMap) : Bool :=
  (s.wavesOn c p).any (fun x => (x.2.2.carrying l).any (s.pendingAt c x.1 x.2.1))

/-- The entry to evict: the least recently used of those that the word's registers do not use (R249, R250). -/
def State.layVictim (s : State) (h : Here) (i : Instr) : Option LocMap :=
  ((s.layEntries h.g.core (h.wv % 4)).reverse).find? (fun l => !(h.w.laysOf (namedOf i)).contains l)

/-- Entries that a word takes anew: its registers' lays after it that the table does not hold. -/
def State.newLays (s : State) (h : Here) (i : Instr) : Host.Outcome State Fault Refusal → List LocMap
  | .next t => match (Map.find t.groups h.ctx).bind (fun g => g.waves[h.wv]?) with
    | some w => match w.laysOf (namedOf i) with
      | [] => []
      | ls => ls.filter (fun l => !(s.layEntries h.g.core (h.wv % 4)).contains l)
    | none => []
  | .fault _ => []
  | .refused _ => []

/-- Room made in the lay table before a word runs (R37, R249, R250); `none` while a register of the entry to evict has a pending access. -/
def State.makeRoom (s : State) (h : Here) (i : Instr) (need : Nat) : Nat → Option State
  | 0 => some s
  | fuel + 1 =>
    if need = 0 ∨ (s.layEntries h.g.core (h.wv % 4)).length + need ≤ Config.layTableEntries then some s
    else
      match s.layVictim h i with
      | none => some s
      | some l => if s.layPending h.g.core (h.wv % 4) l then none else (s.evictLay h.g.core (h.wv % 4) l).makeRoom h i need fuel

/-- The entries that a word has read or written registers through, after it. -/
def State.settleLays (s : State) (h : Here) (i : Instr) : State :=
  match (Map.find s.groups h.ctx).bind (fun g => g.waves[h.wv]?) with
  | none => s
  | some w =>
    match (h.w.laysOf (namedOf i) ++ w.laysOf (namedOf i)) with
    | [] => s
    | ls => s.putLays h.g.core (h.wv % 4) (useLays (s.layEntries h.g.core (h.wv % 4)) ls)

/-! ## The issue of a word -/

/-- The cause of a word that is not an instruction (R87). -/
def decodeCause (e : DecodeError) : Cause := if e.isBundle then .illegalBundle else .illegalOpcode

/-- A decode fault: TTHREAD the lowest thread of EXEC, NOEL (R87, R88). -/
def State.decodeFault (s : State) (h : Here) (c : Cause) : State := s.takeTrap h (Trap.of c (h.w.exec h.k))

/-- A word that a sibling issues after the halt has reached it counts (R293). -/
def Wave.countSkid (w : Wave) : Wave :=
  match w.halt with
  | .skid words clocks => { w with halt := .skid (words + 1) clocks }
  | .running | .coming | .stopped | .trapped _ _ | .handler | .debug _ _ => w

/-- Threads of a slot that some guard of a word covers; EXEC for a word that has none. -/
def Here.covers (h : Here) (i : Instr) : Mask :=
  match guardsOf i with
  | [] => h.w.exec h.k
  | gs => gs.foldl (fun m g => m ||| h.w.cover h.k g) 0

/-- Entries of the stack that a word has spilled enter the wave's spill region (R239). -/
def State.spillBy (s : State) (h : Here) : State :=
  match (Map.find s.groups h.ctx).bind (fun g => g.waves[h.wv]?) with
  | none => s
  | some w => s.writeSpill h.g h.wv h.w.spilled w.spilled

/-- What follows a word that has issued: its port and its VALU passes are used, a sibling's skid counts it, the entries of the lay table it
used come first (R238, R246, R249, R252, R293). A word that waits where it stands has not issued. -/
def State.afterWord (s : State) (h : Here) (i : Instr) : State :=
  if s.stallsAt h.ref then s
  else
    let port := h.w.port h.k i
    let s0 := (s.modWave h.ctx h.wv Wave.countSkid).spillBy h
    let s1 := s0.modCore h.g.core (fun c =>
      { c with
        issued := (h.ref, port) :: c.issued
        passes := if port.vector then vmod c.passes (h.wv % 4) (fun n => n - passesOf i) else c.passes })
    if h.covers i = 0 then s1 else s1.settleLays h i

/-- A word's outcome with what follows it. -/
def finishWord (h : Here) (i : Instr) : Host.Outcome State Fault Refusal → Host.Outcome State Fault Refusal
  | .next s => .next (s.afterWord h i)
  | .fault f => .fault f
  | .refused r => .refused r

/-- The word stays where it is. -/
def State.holdWord (s : State) (h : Here) : State := s.putWave h (h.w.stallAt h.k .stall)

/-- A word whose registers, hazards and reservation let it run: room in the lay table first, then its effect (R250). -/
def State.runWord (s : State) (h : Here) (i : Instr) : Host.Outcome State Fault Refusal :=
  match s.newLays h i (exec i s) with
  | [] => finishWord h i (exec i s)
  | ls =>
    match s.makeRoom h i ls.length Config.layTableEntries with
    | none => .next (s.holdWord h)
    | some s1 =>
      match s1.slotAt h.ref with
      | none => .next s1
      | some h1 => finishWord h1 i (exec i s1)

/-- A fault of the wave that has not been delivered, oldest first (R299). -/
def Wave.anyFault (w : Wave) : Option AsyncFault := w.firstFault (fun _ => true)

/-- The address a thread's bad read is reported at: none. -/
def noAddr (_ : Lane) : Addr := 0

/-- The element of a thread's read that is uncorrectable; a predicate bit is none (R28, R304). -/
def Wave.badTelem (w : Wave) (cov : Mask) (i : Instr) (t : Lane) : Word :=
  match (w.readsOf cov i).find? (fun r => w.readsBad r t) with
  | some r => w.telem r t
  | none => noElem

/-- The death of some threads would end the wave before every remote write of it has its reply: the word waits for these (R380). -/
def State.endsEarly (s : State) (h : Here) (victims : Mask) : Bool := h.w.endsAll victims && s.waveUnanswered h.ctx h.wv

/-- Threads that consume uncorrectable data by a word die before it (R303); where that would end the wave and one of its faults
is undelivered, the fault is delivered instead (R299). -/
def State.consume (s : State) (h : Here) (victims : Mask) (i : Instr) : Host.Outcome State Fault Refusal :=
  match h.w.lastFault victims with
  | some f => .next (s.deliverFault h f)
  | none =>
    if s.endsEarly h victims then .next (s.holdWord h) else
    let s1 := s.killThreads h.ctx h.wv victims (h.w.badTelem victims i) noAddr (some h.k)
    match s1.slotAt h.ref with
    | none => .next s1
    | some h1 => if h1.pc = h.pc ∧ h1.w.exec h1.k ≠ 0 ∧ s1.mayIssue h1 then s1.runWord h1 i else .next s1

/-- A word that some wave's pending write, or its port's current reservation, keeps waiting (R241, R242, R252). -/
def State.heldWord (s : State) (h : Here) (i : Instr) : Bool :=
  s.hazard h i || s.unpowered h i

/-- A decoded word of the issuing slot: its decode checks, what holds it, the data it consumes, its effect (R14, R88, R242, R303). -/
def State.issueWord (s : State) (h : Here) (i : Instr) : Host.Outcome State Fault Refusal :=
  match s.decodeCheck h i with
  | some c => .next (s.decodeFault h c)
  | none =>
    if s.heldWord h i then .next ((s.holdWord h).askPasses h.g.core (h.wv % 4))
    else if h.w.consumers h.k i = 0 then s.runWord h i
    else if s.waitsAt h i then .next (s.holdWord h)
    else s.consume h (h.w.consumers h.k i) i

/-- An uncorrectable instruction word kills every thread of EXEC (R303); where that would end the wave and one of its faults is undelivered,
the fault is delivered instead (R299). -/
def State.badWord (s : State) (h : Here) : State :=
  match h.w.lastFault (h.w.exec h.k) with
  | some f => s.deliverFault h f
  | none =>
    if s.endsEarly h (h.w.exec h.k) then s.holdWord h
    else s.killThreads h.ctx h.wv (h.w.exec h.k) (fun _ => noElem) (fun _ => h.pc) (some h.k)

/-- What a fetch comes to. -/
def State.issueFetched (s : State) (h : Here) : Fetched → Host.Outcome State Fault Refusal
  | .waits t => .next (s.putWave h (h.w.stallAt h.k (.fetch t h.pc)))
  | .trap c => .next (s.takeTrap h { Trap.of c (h.w.exec h.k) with addr := h.pc })
  | .bad => .next (s.badWord h)
  | .word x =>
    match decodeIn h.g.image.mode x with
    | .error e => .next (s.decodeFault h (decodeCause e))
    | .ok i => s.issueWord h i

/-- A slot issues its next word, or takes the trap of an earlier one that has given up (R302), of its own word's fetch or read that has given up
(R360), or of a block whose check has failed (R240). While a pair word of its partition is starved, a single VALU word does not issue (R248). -/
def State.issueSlot (s : State) (r : SlotRef) : Host.Outcome State Fault Refusal :=
  let s0 := { s with cur := some r }
  match s0.slotAt r with
  | none => .next s0
  | some h =>
    if !s0.mayIssue h || s0.behindPair h then .next s0
    else if h.w.badBlock then .next ((s0.modWave h.ctx h.wv (fun w => { w with badBlock := false })).takeTrap h h.structure)
    else
      match s0.dueGiveUp h with
      | some id => (s0.giveUp h.g.core id).outcome
      | none =>
        match (h.w.slots[h.k]).toRaise with
        | some (cause, a) => .next (s0.takeTrap h { Trap.of cause (h.w.exec h.k) with addr := a })
        | none =>
          match (s0.fetch h).1.outcome with
          | .next s1 => s1.issueFetched h (s0.fetch h).2
          | x => x

/-- The slot may issue in the present core clock: it has not issued in it, it does not rest after a YIELD, its word's port is free, and a
SPAWN comes after no word of a later partition, wave or slot (R152, R235, R238, R246). -/
def State.inTurn (s : State) (h : Here) : Bool :=
  let c := s.core h.g.core
  let later (r : SlotRef) : Bool :=
    decide (h.wv % 4 < r.wave % 4) || (r.wave % 4 == h.wv % 4 && (decide (h.wv < r.wave) || (r.wave == h.wv && decide (h.k.val < r.slot))))
  (h.w.slots[h.k]).rest == 0 && (c.issued.isEmpty ||
    (!s.resting h && portFree (c.portsUsed (h.wv % 4)) (h.portFor s (s.peek h)) &&
      (match s.peek h with
       | some (.spawn _ _ _ _) => !c.issued.any (fun x => later x.1)
       | _ => true)))

/-- A clock passes on a core, and 1 ns. -/
def State.clockOf (s : State) (c : Nat) : State := { s.endClock c with now := s.now + 1 }

/-- Core clocks pass until a slot may issue. -/
def State.awaitTurn (s : State) (r : SlotRef) : Nat → State
  | 0 => s
  | n + 1 =>
    match s.slotAt r with
    | none => s
    | some h => if s.inTurn h then s else (s.clockOf h.g.core).awaitTurn r n

/-! ## A core's history (R306, R307) -/

/-- The device apart from one core and from bookkeeping: what a strike in the core does not restore. Engine commands of the core are
among its state until they are old enough to move anything. -/
def State.outside (s : State) (c : Nat) : State :=
  { s.modCore c (fun _ => Core.reset) with
    colls := s.colls.filter (fun x => x.2.core != c || x.2.started)
    groups := s.groups.filter (fun g => g.2.core != c)
    homeLines := []
    faultRecs := []
    clusters := s.clusters.map (fun k => { k with waiting := [], clock := 0 })
    now := 0
    cur := none
    agenda := []
    fresh := 0
    nextId := 0
    history := [] }

/-- A word of a core has had an effect outside the core at once: the core counts 40 clocks before its next word, and no strike undoes the
word (R307). -/
def State.sealHistory (s : State) (c : Nat) : State :=
  let s1 := s.ticks c Config.strikeWindow
  { s1 with history := s1.history.filter (fun x => x.coreNo != c) }

/-- A word's write to another core is applied to that core's snapshots too (R307). -/
def State.reapplyWord (s : State) (r : SlotRef) (t : State) (x : Snapshot) : Snapshot :=
  if s.core x.coreNo = t.core x.coreNo ∧ s.onCore x.coreNo = t.onCore x.coreNo then x
  else
    match (s.withSnapshot x).issueSlot r with
    | .next u => { x with core := { u.core x.coreNo with clock := x.core.clock }, groups := u.onCore x.coreNo }
    | .fault _ => x
    | .refused _ => x

/-- A word's outcome as the histories of the cores take it. -/
def State.wordHistory (s : State) (r : SlotRef) : Host.Outcome State Fault Refusal → Host.Outcome State Fault Refusal
  | .next t =>
    match Map.find s.groups r.ctx with
    | none => .next t
    | some g =>
      if s.history.any (fun x => x.coreNo == g.core) && s.outside g.core != t.outside g.core then
        let t1 := t.sealHistory g.core
        .next { t1 with history := t1.history.map (s.reapplyWord r t) }
      else .next t
  | .fault f => .fault f
  | .refused x => .refused x

/-- A core's own moves: what a restored core does again by itself. -/
def ownMove : Instr → Bool
  | .issue _ _ | .starvation _ | .sleepExpiry _ | .binTimerExpiry _ _ | .binLaunch _ _ | .parkedWordGiveUp _ _
  | .haltArrival _ _ | .siblingStop _ _ | .handlerEntry _ | .strike _ | .rollbackResume _ | .matrixOrderBegin _
  | .shadowReady _ | .mmagGroupStart _ | .occupancyEnd _ | .matrixComplete _ | .drainBufferFree _ _ | .batchRetire _ _ => true
  | _ => false

/-- Another agent's write to a core is applied to its snapshots too, in arrival order (R307). -/
def State.reapply (s : State) (i : Instr) (x : Snapshot) : Snapshot :=
  match exec i (s.withSnapshot x) with
  | .next t => { x with core := { t.core x.coreNo with clock := x.core.clock }, groups := t.onCore x.coreNo }
  | .fault _ => x
  | .refused _ => x

/-- An event's outcome as the histories of the cores take it. -/
def State.eventHistory (s : State) (i : Instr) : Host.Outcome State Fault Refusal → Host.Outcome State Fault Refusal
  | .next t => if s.deferred && !ownMove i && !s.history.isEmpty then .next { t with history := s.history.map (s.reapply i) } else .next t
  | .fault f => .fault f
  | .refused x => .refused x

/-! ## What moves next (log entries 1–3) -/

/-- The waves of the groups: context, wave, its group and itself. -/
def State.allWaves (s : State) : List (Nat × Nat × Group × Wave) := s.groups.flatMap (fun g => g.2.waves.zipIdx.map (fun (w, i) => (g.1, i, g.2, w)))

/-- A sibling in its skid stops now (R293). -/
def State.stopsNow (s : State) (ctx : Nat) (g : Group) (wv : Nat) : Halt → Bool
  | .skid words clocks => decide (16 ≤ words) || decide (48 ≤ clocks) || s.idleWave ctx g wv
  | .running | .coming | .stopped | .trapped _ _ | .handler | .debug _ _ => false

/-- The moves of the halt that are due. -/
def State.haltMoves (s : State) : List Instr :=
  (s.allWaves.filter (fun x => x.2.2.2.halt == .coming)).map (fun x => .haltArrival x.1 x.2.1) ++
  (s.allWaves.filter (fun x => s.stopsNow x.1 x.2.2.1 x.2.1 x.2.2.2.halt)).map (fun x => .siblingStop x.1 x.2.1) ++
  (s.groups.filter (fun g => g.2.waves.any (fun w => w.halt.isTrapped) && !g.2.halting)).map (fun g => .handlerEntry g.1)

/-- A failed word of a core can raise its cause now, or be dropped. -/
def State.givesUp (s : State) (c : Nat) (e : Nat × MemWord) : Bool :=
  (s.failure c e.1 e.2).isSome && ((Map.find s.groups e.2.ctx).bind (fun g => g.waves[e.2.wave]?)).any (fun w =>
    (w.takes e.1 && (s.core c).roomFor e.1) || w.ended || decide (((s.failure c e.1 e.2).map (fun x => x.2.1)).getD 0 &&& w.alive = 0))

/-- The moves of the cores that are due: give-ups, SLEEPs, bins, the end of a rollback. -/
def State.coreMoves (s : State) : List Instr :=
  let cs := ((s.groups.map (fun g => g.2.core)) ++ (List.range Config.cores).filter (fun c => decide (0 < (s.core c).stopLeft))).dedup
  cs.flatMap (fun c =>
    ((((s.core c).log ++ (s.core c).reqs).filter (s.givesUp c)).map (fun e => Instr.parkedWordGiveUp c e.1)) ++
    (if 0 < (s.core c).stopLeft then [.rollbackResume c] else []) ++
    ((s.core c).bins.zipIdx.filterMap (fun (b, i) =>
      if !b.launching && (Map.find s.groups b.ctx).any (fun g => decide (g.binInterval ≤ b.timer)) then some (.binTimerExpiry c i)
      else if (s.binSlot b).any (fun x => s.binReady c b x.2.1) then some (.binLaunch c i)
      else none))) ++
  (s.groups.flatMap (fun g => slotsOf g.1 g.2)).filterMap (fun h => if (h.w.slots[h.k]).wait = some (.sleep 0) then some (.sleepExpiry h.ref) else none)

/-- The braid can do something for a COLL now. -/
def State.braidDue (s : State) (id : Nat) (c : Coll) : Bool :=
  s.braidMoves id c && (Map.find (s.braidTry id).colls id != some c || (s.braidTry id).remote.length != s.remote.length)

/-- The moves of the engines that are due without a queue of their own: batches, COLLs that may go on or are complete. -/
def State.engineMoves (s : State) : List Instr :=
  (s.allWaves.filter (fun x => s.mayRetire x.1 x.2.2.1 x.2.1 x.2.2.2)).map (fun x => .batchRetire x.1 x.2.1) ++
  (s.colls.filter (fun c => s.collDone c.1 c.2)).map (fun c => .collComplete c.1) ++
  (s.colls.filter (fun c => s.braidDue c.1 c.2)).map (fun c => .braidReady c.1)

/-- The arbiters that have a request. -/
def State.grantMoves (s : State) : List Instr :=
  (((s.groups.map (fun g => clusterOf g.2.core)).dedup).filter (fun k => !(s.cluster k).waiting.isEmpty)).map .reservationGrant

/-- The moves of the queues that may be due: requests, words of the operand log, matrix order, copies and drains of the cores, fault records,
bumps. -/
def State.queueMoves (s : State) : List Instr :=
  let cs := (s.groups.map (fun g => g.2.core)).dedup
  cs.flatMap (fun c =>
    (s.core c).reqs.flatMap (fun e =>
      if e.2.performed then [if e.2.spec.kind = .ld2s then .ld2sDelivery c e.1 else .loadDataDelivery c e.1]
      else [.effectLeavesCore c e.1, .memoryRequestArrival c e.1]) ++
    ((s.core c).log.filter (fun e => s.due c e.1 e.2)).map (fun e => .memoryRequestArrival c e.1) ++
    [.shadowReady c, .matrixOrderBegin c, .mmagGroupStart c, .occupancyEnd c, .matrixComplete c, .drainBufferFree c 0, .drainBufferFree c 1] ++
    (s.core c).copies.map (fun x => .copyChunk c x.id) ++
    (s.core c).buffers.toList.filterMap (fun b => b.map (fun d => .copyChunk c d.rank))) ++
  s.faultRecs.map (fun r => .faultRecord r.2.core r.1) ++
  s.bumps.map (fun b => .genBumpComplete b.asid)

/-- A queue's move changes what a core, a group, an arbiter or a list of records holds. -/
def State.moves (s : State) (i : Instr) : Bool :=
  match exec i s with
  | .next t => t.faultRecs != s.faultRecs || t.bumps != s.bumps || t.clusters != s.clusters || t.cores != s.cores || t.groups != s.groups
  | .fault _ => true
  | .refused _ => true

/-- The moves of the distributors that are due. -/
def State.distributorMoves (s : State) : List Instr :=
  (s.groups.filter (fun g => s.quiet g.1 g.2)).map (fun g => Instr.workGroupEnd g.1) ++
  (s.launches.filter (fun l => s.atEnd l.1 l.2 && l.2.token.isNone)).map (fun l => .launchComplete l.1) ++
  (s.launches.flatMap (fun l => (l.2.kids.filter (fun k => l.2.isGraph && s.childFree l.2 k)).map (fun k => .graphChildStart l.1 k.1))) ++
  (s.gangs.filter (fun x => !x.2.ready)).filterMap (fun x => (Map.find s.launches x.2.launch).map (fun l => .gangPlaced (BitVec.ofNat 5 l.part) x.1)) ++
  (s.groups.flatMap (fun g => (engineClasses.filter (fun c => g.2.stop.any (fun x => !x.waiting && !x.acked.contains c) && s.mayAck g.1 g.2 c &&
    s.coreUp g.2.core)).map (fun c => .engineStopAck g.1 c))) ++
  (s.groups.filter (fun g => (s.gangOf g.2).any s.gangSaved)).map (fun g => .preemptionComplete (BitVec.ofNat 5 g.2.part)) ++
  ((List.range 32).filter (fun p => s.partRuns p && !(s.part p).idle && !s.placing p)).map (fun p => .decisionPoint (BitVec.ofNat 5 p))

/-- Repairs and tests that are due: banks and rows that nothing uses any more, in-field tests that may begin (R274, R417, R419). -/
def State.repairMoves (s : State) : List Instr :=
  ((List.range Config.cores).flatMap (fun c =>
    ((s.core c).bankFaults.filter (fun b => (s.bankUsers c b).isEmpty && decide (b < 32))).map (fun b => Instr.registerBankRetire c (b / 8) (b % 8)) ++
    (if (s.core c).owner.isNone then (s.core c).rowFaults.map (fun r => .spareRowEntry c r) else []))) ++
  ((List.range Config.clusters).filter (fun k => (s.testBegins k).isSome)).map .inFieldTestStart

/-- Timers that have run out: of remote operations, of ports that retrain, of holds, of stops, of waiting launches (R224, R326, R328, R385, R388,
R391). -/
def State.timerMoves (s : State) : List Instr :=
  (s.remote.filter (fun o => o.2.status == .waiting && s.opActs o.2 && !o.2.young s.now)).map (fun o => Instr.operationAgeExpiry o.1) ++
  (s.remote.filter (fun o => o.2.status == .waiting && s.opActs o.2 && o.2.young s.now && decide (o.2.lastSent + o.2.interval ≤ s.now))).map
    (fun o => .retransmitTimeout o.1) ++
  ((List.range 13).filter (fun p => (s.port p).overdue s.now)).map .laneRetrainEnd ++
  (s.groups.filter (fun g => g.2.held.any (fun t => decide (t + 1000 * g.2.budget ≤ s.now)))).map (fun g => .preemptBudgetExpiry g.1) ++
  (s.groups.filter (fun g => g.2.stop.any (fun x => !x.waiting && decide (x.since + 20000000 ≤ s.now)) &&
    s.remote.any (fun o => o.2.ctx == g.1 && o.2.open_ && opWrites o.2.op))).map (fun g => .remoteStopTimeout g.1) ++
  (s.ctxEnded.filter (fun c => decide (c.2 + 1000000000 ≤ s.now))).map (fun c => .ctxidReuseDelayEnd c.1)

/-- A move of the device's own agents that is due, if any. -/
def State.dueMove (s : State) : Option Instr :=
  if s.devState ≠ .running then none
  else
    match s.haltMoves ++ s.coreMoves ++ s.engineMoves ++ s.repairMoves ++ s.timerMoves with
    | i :: _ => some i
    | [] => ((s.grantMoves ++ s.queueMoves).find? s.moves).or s.distributorMoves.head?

/-- Blocks that a trap has formed are written to the save area (R240). -/
def writtenOut : Host.Outcome State Fault Refusal → Host.Outcome State Fault Refusal
  | .next t => .next t.formBlocks
  | .fault f => .fault f
  | .refused x => .refused x

/-- An event happens at a time. -/
def State.happen (s : State) (time : Nat) (i : Instr) : Host.Outcome State Fault Refusal :=
  let s1 := { s with now := max s.now time }
  s1.eventHistory i (writtenOut (exec i s1))

/-- A slot's word, once its turn has come, with its core's history. -/
def State.issue (s : State) (r : SlotRef) : Host.Outcome State Fault Refusal :=
  let s1 := s.awaitTurn r 4
  s1.wordHistory r (writtenOut (s1.issueSlot r))

/-- The cores with groups, or with effects that have not left them, once each. -/
def State.busyCores (s : State) : List Nat :=
  ((s.groups.map (fun g => g.2.core)) ++ (List.range Config.cores).filter (fun c => !(s.core c).posts.isEmpty)).dedup

/-- A core's next clock ends with the present clock of its cluster at the latest (R6). -/
def State.clockDue (s : State) (c : Nat) : Bool :=
  decide ((s.core c).elapsed + (s.core c).period ≤ 840 * (s.cluster (clusterOf c)).clock)

/-- The next clock: the clusters of busy cores count one, and every busy core whose own clock ends in it counts one too and issues, partition by
partition (R6, R248). -/
def State.nextClock (s : State) : State :=
  let s1 := ((s.busyCores.map clusterOf).dedup).foldl (fun s k => s.modCluster k (fun c => { c with clock := c.clock + 1 })) s
  { s1 with
    now := s.now + 1
    agenda := s.busyCores.flatMap (fun c =>
      if s1.coreRuns c && s1.clockDue c then (List.range 4).map (fun p => Move.event (s.now + 1) (.issue c p)) else []) }

/-- The default choice: a due move, else a clock. -/
def State.defaultMove (s : State) : Host.Outcome State Fault Refusal :=
  match s.dueMove with
  | some i => s.happen s.now i
  | none => .next s.nextClock

/-- What moves next: the head of the agenda, or the default choice. -/
def State.nextMove (s : State) : Host.Outcome State Fault Refusal :=
  match s.agenda with
  | [] => s.defaultMove
  | .event t i :: rest => { s with agenda := rest }.happen t i
  | .word r :: rest => { s with agenda := rest }.issue r

end Sys2Proof.Machine
end

