-- ==== Sys2Proof/Machine/Load.lean ====
section
/-! DEFINITION. A word placed where the next step fetches it: what stands for the load of a program from outside (log entry 4). -/

namespace Sys2Proof.Machine

/-- The page tables of the load, as 8-byte words at partition physical addresses: an active descriptor, one entry of each level,
and a leaf of 512 MiB that maps the first addresses to themselves under key 1 (R346–R350). -/
def loadTables : List (Nat × Nat) := [(0, 1), (8, 0x1000), (0x1000, 0x2001), (0x2000, 0x3001), (0x3000, 0x81F)]

/-- Where the word stands. -/
def loadPc : Nat := 0x10000

/-- The image of the load: one role of one wave, every optional unit in use. -/
def loadImage : Image :=
  { base := BitVec.ofNat 64 loadPc
    codeOff := 0
    codeLen := 0x1000
    roles := [(0, 256, 1)]
    scratch := 262144
    argLen := 8
    handler := none
    clusterN := 0
    persistent := false
    matrix := true
    mode := 0
    dataOff := 0
    dataLen := 0 }

/-- The context, gang and launch of the load. -/
def loadCtx : Nat := 1

/-- The group of the load: one wave of 32 threads on core 0, with every attribute. -/
def loadGroup : Group :=
  { asid := 0
    part := 0
    launch := 0
    gang := 0
    core := 0
    grp := #v[0, 0, 0]
    ngrp := #v[1, 1, 1]
    gsize := 32
    args := 0x20000
    savea := 0x30000
    slot := 0
    priv := true
    test := true
    image := loadImage
    scratchBase := 0
    scratch := []
    badScratch := []
    shapes := Vector.replicate 16 0
    lscale := 0x3F800000
    ovfl := 0
    ovflNow := 0
    lscnt := 0
    bars := Vector.replicate 16 Barrier.launch
    waves := [waveAt loadImage 0 256 32 false 0 0 0]
    waveSlots := 1
    born := 1
    held := none
    budget := 100
    binInterval := 1000
    stop := none
    serial := 0 }

/-- The gang of the load. -/
def loadGang : Gang :=
  { launch := 0
    members := [loadCtx]
    first := 0
    count := 1
    ready := true
    cluster := none
    share := 0
    shareBase := 0
    scratch := []
    badScratch := []
    clusterBars := Vector.replicate 8 Barrier.launch
    gridBars := Vector.replicate 4 Barrier.launch }

/-- The slot of the load. -/
def loadSlot : SlotRef := ⟨loadCtx, 0, 0⟩

/-- An 8-byte word written into device memory. -/
def loadWordAt (m : List Host.Cell) (ga x : Nat) : List Host.Cell := Memory.writeBytes m ga (bytesOf 8 x)

/-- The partition of the load: cluster 0, ASID 0, key 1. -/
def loadPart (p : Partition) : Partition :=
  { p with clusters := 1, asidFirst := 0, asidCount := 1, keys := 2, primary := 1, formed := 1, asdBase := 0, pstat := 0, quarantine := [] }

/-- The held addresses of the load's words, in the channels of cluster 0. -/
def loadCells (w : Nat) : List (Nat × Nat) :=
  (loadTables ++ [(loadPc, w)]).map (fun x => ((loadPart Partition.reset).place 0 x.1, x.2))

/-- A core on which nothing holds the load's group back. -/
def Core.loaded (c : Core) : Core :=
  { c with
    owner := some loadCtx
    log := []
    reqs := []
    tlb := []
    icache := []
    stopLeft := 0
    passes := Vector.replicate 4 256
    turns := []
    issued := [] }

/-- A state in which the word is the next one that a step issues. -/
def State.placeWord (s : State) (w : Nat) : State :=
  let lines := (loadCells w).map (fun x => x.1 / 64)
  { s with
    mem := (loadCells w).foldl (fun m x => loadWordAt m x.1 x.2) s.mem
    lineKeys := s.lineKeys.filter (fun l => !lines.contains l.1)
    badLines := s.badLines.filter (fun l => !lines.contains l)
    gens := Map.erase s.gens 0
    cores := vmod s.cores 0 Core.loaded
    clusters := vmod s.clusters 0 (fun c => { c with fieldTest := .none })
    parts := vmod s.parts 0 loadPart
    groups := Map.insert s.groups loadCtx loadGroup
    gangs := Map.insert s.gangs 0 loadGang
    tests := []
    devState := .running
    beyond := none
    agenda := [.word loadSlot] }

end Sys2Proof.Machine
end

