-- ==== Sys2Proof/Machine/Step.lean ====
section
/-! DEFINITION. One step of the device, and a word placed where the next step fetches it. -/

namespace Sys2Proof.Machine

/-- One step: the move at the head of the agenda, or the one the device makes of itself (log entries 1–3). -/
def step (s : State) : Host.Outcome State Fault Refusal := s.nextMove

/-- The state with an instruction placed where `step` fetches the next one; bits above `nbits` are 0 (log entry 4). -/
def State.withFetchWord (s : State) (nbits w : Nat) : State := s.placeWord (w % 2 ^ nbits)

end Sys2Proof.Machine
end

