-- ==== Sys2Proof/Safety.lean ====
section
/-! DEFINITION. The terms claims are stated in: what a well-formed wave is, what it means that a word issues and that it retires
results, and the results the manual gives, written from its rules and not from the meanings. -/

namespace Sys2Proof.Machine

/-! ## Well-formed waves -/

/-- One level of borrowing, and the lists that name the borrowers (R30, R32). -/
structure Wave.Borrows (w : Wave) : Prop where
  base : ∀ r b, (w.reg r).base = some b → r < 256 ∧ b < 256 ∧ b ≠ r ∧ (w.reg b).base = none ∧ r ∈ (w.reg b).borrowers
  back : ∀ b r, r ∈ (w.reg b).borrowers → (w.reg r).base = some b
  nodup : ∀ b, (w.reg b).borrowers.Nodup

/-- The identity lay gives a live thread its own element: the parked half of a Z5 wave is not live (R29, R410). -/
def Wave.Placed (w : Wave) : Prop := ∀ t : Lane, Mask.has w.alive t = true → w.ident[t] = some t

/-- A wave whose lays and tags are as R30, R32 and R40 say. -/
structure Wave.LaysOk (w : Wave) : Prop where
  borrows : w.Borrows
  placed : w.Placed
  uniform : ∀ r, (w.reg r).tag = .uniform → ∀ t : Lane, Mask.has w.alive t = true →
    (w.reg r).loc[t] ≠ none ∧ w.read r t = w.read r (Mask.lowest w.alive)

/-- Everything of a wave but its registers, their uncorrectable elements and PATHS.DEADSRC. -/
def Wave.SameBut (w w' : Wave) : Prop := w' = { w with regs := w'.regs, badElems := w'.badElems, deadsrc := w'.deadsrc }

/-- A wave of a state. -/
def State.waveOf (s : State) (ctx wv : Nat) : Option Wave := (Map.find s.groups ctx).bind (fun g => g.waves[wv]?)

/-- Slot `h` issues in `s`: no access has left the address space, its wave is well formed, and EXEC holds live threads only (R41). -/
structure Issues (s : State) (h : Here) : Prop where
  here : s.here = some h
  within : s.beyond = none
  lays : h.w.LaysOk
  exec : ∀ t, Mask.has (h.w.exec h.k) t = true → Mask.has h.w.alive t = true

/-- None of a thread's entries in these registers is VOID. -/
def Wave.Sees (w : Wave) (rs : List Nat) (t : Lane) : Prop := ∀ r ∈ rs, (w.reg r).loc[t] ≠ none

/-- OVFL bits FINV and FOVF as covered threads' operations raise them (R27). -/
def raised (cov : Mask) (o : Lane → Outs) : Word :=
  (if ∃ t, Mask.has cov t = true ∧ (o t).inv = true then 8 else 0) ||| (if ∃ t, Mask.has cov t = true ∧ (o t).ovf = true then 4 else 0)

/-- What a word leaves whose effects are register results of covered threads: the next state differs in the issuing wave's registers,
in its pc, in PATHS.DEADSRC where `dead` says, and in OVFL by `ev`, which a SYSWR of the same clock does not clear; no live thread reads any register but the destinations differently,
and one that a destination does not cover reads that as before (R16, R27). -/
structure Retires (s t : State) (h : Here) (cov : Nat → Mask) (dests : List Nat) (dead : Bool) (ev : Word) (w' : Wave) : Prop where
  next : t = s.modGroup h.ctx (fun g =>
    { g.setWave h.wv (w'.advance h.k) with ovfl := g.ovfl ||| ev, ovflNow := g.ovflNow ||| ev })
  rest : h.w.SameBut w'
  deadsrc : w'.deadsrc = (h.w.deadsrc || dead)
  other : ∀ q, q ∉ dests → ∀ t, Mask.has h.w.alive t = true → w'.read q t = h.w.read q t
  uncovered : ∀ d ∈ dests, ∀ t, Mask.has h.w.alive t = true → Mask.has (cov d) t = false → w'.read d t = h.w.read d t

/-! ## Integer results, from R45 and R99–R119 -/

/-- `wrap`, `sat_s` and `sat_u` of an exact integer (R45). -/
def narrow (n : Nat) (sat u : Bool) (x : Int) : BitVec n :=
  if !sat then BitVec.ofInt n x
  else if u then BitVec.ofInt n (max 0 (min x (2 ^ n - 1)))
  else BitVec.ofInt n (max (-2 ^ (n - 1)) (min x (2 ^ (n - 1) - 1)))

/-- An operand as a signed or an unsigned integer (R99). -/
def signedOr (u : Bool) {n : Nat} (x : BitVec n) : Int := if u then (x.toNat : Int) else x.toInt

/-- The halves of a 64-bit result (R15). -/
def halves (x : BitVec 64) : List Word := [x.extractLsb' 0 32, x.extractLsb' 32 32]

/-- The count of a shift (R113, R114). -/
def countOf (cl : Bool) (b : Word) : Nat := if cl then min b.toNat 32 else b.toNat % 32

/-- Position and effective length of a field (R115). -/
def fieldPos (ctl : Word) : Nat := ctl.toNat % 256
/-- The effective length. -/
def fieldLen (ctl : Word) : Nat := min (ctl.toNat / 256 % 256) (32 - fieldPos ctl)

/-- A field, zero-extended or sign-extended from its top bit (R115). -/
def fieldOut (u : Bool) (a ctl : Word) : Word :=
  let L := fieldLen ctl
  let x := a.toNat / 2 ^ fieldPos ctl % 2 ^ L
  if L = 0 then 0
  else if u ∨ x < 2 ^ (L - 1) then BitVec.ofNat 32 x
  else BitVec.ofInt 32 ((x : Int) - 2 ^ L)

/-- A field put into a word (R115). -/
def fieldIn (a b ctl : Word) : Word :=
  BitVec.ofFnLE (fun i : Fin 32 =>
    if fieldPos ctl ≤ i.val ∧ i.val < fieldPos ctl + fieldLen ctl then a.getLsbD (i.val - fieldPos ctl) else b.getLsbD i.val)

/-- A result byte of BPERM: byte k[2:0] of b:a, its sign spread by k[7], and zero by k[6] (R119). -/
def permByte (a b : Word) (k : BitVec 8) : BitVec 8 :=
  let byt := ((b ++ a : BitVec 64) >>> (8 * (k.extractLsb' 0 3).toNat)).extractLsb' 0 8
  if k.getLsbD 6 then 0 else if k.getLsbD 7 then (if byt.getLsbD 7 then 0xFF else 0) else byt

/-- The guard of an integer or logic word and what a covered thread's sources, in the order of `usesOf`, give its destinations
(R103–R119); the thread counts for SEL's predicate alone. -/
def intResult (w : Wave) : Instr → Option (Guard × (Lane → List Word → List Word))
  | .mov g _ _ _ => some (g, fun _ xs => xs)
  | .movi g _ imm => some (g, fun _ _ => [imm])
  | .iadd g _ _ _ sat u => some (g, fun _ xs => [narrow 32 sat u (signedOr u (arg xs 0) + signedOr u (arg xs 1))])
  | .iaddImmediate g _ _ imm => some (g, fun _ xs => [arg xs 0 + imm])
  | .isub g _ _ _ sat u => some (g, fun _ xs => [narrow 32 sat u (signedOr u (arg xs 0) - signedOr u (arg xs 1))])
  | .imul g _ _ _ sat u => some (g, fun _ xs => [narrow 32 sat u (signedOr u (arg xs 0) * signedOr u (arg xs 1))])
  | .imulh g _ _ _ u => some (g, fun _ xs => [BitVec.ofInt 32 (signedOr u (arg xs 0) * signedOr u (arg xs 1) / 2 ^ 32)])
  | .imad g _ _ _ _ wide sat u => some (g, fun _ xs =>
      if wide then halves (narrow 64 sat u (signedOr u (arg xs 0) * signedOr u (arg xs 1) + signedOr u (arg64 xs 2)))
      else [narrow 32 sat u (signedOr u (arg xs 0) * signedOr u (arg xs 1) + signedOr u (arg xs 2))])
  | .imin g _ _ _ u => some (g, fun _ xs => [BitVec.ofInt 32 (min (signedOr u (arg xs 0)) (signedOr u (arg xs 1)))])
  | .imax g _ _ _ u => some (g, fun _ xs => [BitVec.ofInt 32 (max (signedOr u (arg xs 0)) (signedOr u (arg xs 1)))])
  | .iabs g _ _ sat => some (g, fun _ xs => [narrow 32 sat false |(arg xs 0).toInt|])
  | .and g _ _ _ => some (g, fun _ xs => [arg xs 0 &&& arg xs 1])
  | .andImmediate g _ _ imm => some (g, fun _ xs => [arg xs 0 &&& imm])
  | .or g _ _ _ => some (g, fun _ xs => [arg xs 0 ||| arg xs 1])
  | .orImmediate g _ _ imm => some (g, fun _ xs => [arg xs 0 ||| imm])
  | .xor g _ _ _ => some (g, fun _ xs => [arg xs 0 ^^^ arg xs 1])
  | .xorImmediate g _ _ imm => some (g, fun _ xs => [arg xs 0 ^^^ imm])
  | .blut g _ _ _ _ lut => some (g, fun _ xs => [BitVec.ofFnLE (fun i : Fin 32 =>
      lut.getLsbD (((arg xs 0).getLsbD i.val).toNat + 2 * ((arg xs 1).getLsbD i.val).toNat + 4 * ((arg xs 2).getLsbD i.val).toNat))])
  | .shl g _ _ _ cl => some (g, fun _ xs => [BitVec.ofNat 32 ((arg xs 0).toNat * 2 ^ countOf cl (arg xs 1))])
  | .shr g _ _ _ cl => some (g, fun _ xs => [BitVec.ofNat 32 ((arg xs 0).toNat / 2 ^ countOf cl (arg xs 1))])
  | .sar g _ _ _ cl => some (g, fun _ xs => [BitVec.ofInt 32 ((arg xs 0).toInt / 2 ^ countOf cl (arg xs 1))])
  | .fshl g _ _ _ _ cl => some (g, fun _ xs =>
      [BitVec.ofNat 32 (((arg xs 0).toNat * 2 ^ 32 + (arg xs 1).toNat) * 2 ^ countOf cl (arg xs 2) % 2 ^ 64 / 2 ^ 32)])
  | .fshr g _ _ _ _ cl => some (g, fun _ xs =>
      [BitVec.ofNat 32 (((arg xs 0).toNat * 2 ^ 32 + (arg xs 1).toNat) / 2 ^ countOf cl (arg xs 2))])
  | .bfe g _ _ _ u => some (g, fun _ xs => [fieldOut u (arg xs 0) (arg xs 1)])
  | .bfi g _ _ _ _ => some (g, fun _ xs => [fieldIn (arg xs 0) (arg xs 1) (arg xs 2)])
  | .popc g _ _ => some (g, fun _ xs => [BitVec.ofNat 32 ((List.range 32).countP (arg xs 0).getLsbD)])
  | .clz g _ _ => some (g, fun _ xs => [BitVec.ofNat 32 ((List.range 32).countP (fun i => decide ((arg xs 0).toNat < 2 ^ i)))])
  | .brev g _ _ => some (g, fun _ xs => [(arg xs 0).reverse])
  | .sel g _ _ _ pc => some (g, fun t xs => [if w.pred pc t then arg xs 0 else arg xs 1])
  | .bperm g _ _ _ _ => some (g, fun _ xs =>
      let k (i : Nat) : BitVec 8 := (arg xs 2).extractLsb' (8 * i) 8
      [permByte (arg xs 0) (arg xs 1) (k 3) ++ permByte (arg xs 0) (arg xs 1) (k 2) ++
        (permByte (arg xs 0) (arg xs 1) (k 1) ++ permByte (arg xs 0) (arg xs 1) (k 0))])
  | _ => none

/-! ## Floating-point results, from R46–R53 and R120–R126 -/

/-- The guard of a floating-point word with a register result, and what a covered thread's sources give: the destinations and the
events (R48), under an FPCTL. -/
def fpResult (c : Word) : Instr → Option (Guard × (List Word → Outs))
  | .fadd g _ _ _ rnd => some (g, fun xs => fadd32 rnd c (arg xs 0) (arg xs 1))
  | .fsub g _ _ _ rnd => some (g, fun xs => fsub32 rnd c (arg xs 0) (arg xs 1))
  | .fmul g _ _ _ rnd => some (g, fun xs => fmul32 rnd c (arg xs 0) (arg xs 1))
  | .ffma g _ _ _ _ rnd => some (g, fun xs => ffma32 rnd c (arg xs 0) (arg xs 1) (arg xs 2))
  | .fmin g _ _ _ => some (g, fun xs => fminmax32 false c (arg xs 0) (arg xs 1))
  | .fmax g _ _ _ => some (g, fun xs => fminmax32 true c (arg xs 0) (arg xs 1))
  | .frcp g _ _ rnd => some (g, fun xs => fpOuts c (rcpNum rnd (num32 c (arg xs 0))))
  | .frsq g _ _ rnd => some (g, fun xs => fpOuts c (rsqNum rnd (num32 c (arg xs 0))))
  | .fsqrt g _ _ rnd => some (g, fun xs => fpOuts c (sqrtNum rnd (num32 c (arg xs 0))))
  | .fexp2 g _ _ rnd => some (g, fun xs => fpOuts c (exp2Num rnd (num32 c (arg xs 0))))
  | .flog2 g _ _ rnd => some (g, fun xs => fpOuts c (log2Num rnd (num32 c (arg xs 0))))
  | .fclass g _ _ => some (g, fun xs => ⟨[fclass32 (arg xs 0)], false, false⟩)
  | .pkadd g _ _ _ f16 rnd => some (g, fun xs => pkadd32 f16 rnd (arg xs 0) (arg xs 1))
  | .pkmul g _ _ _ f16 rnd => some (g, fun xs => pkmul32 f16 rnd (arg xs 0) (arg xs 1))
  | .pkfma g _ _ _ _ f16 rnd => some (g, fun xs => pkfma32 f16 rnd (arg xs 0) (arg xs 1) (arg xs 2))
  | .cvt g _ _ rnd hs dst src sat => some (g, fun xs =>
      let o := cvt64 c rnd dst src sat (cvtRaw hs src xs)
      ⟨halves (BitVec.ofNat 64 o.bits), o.inv, o.ovf⟩)
  | _ => none

/-- The exact rational a finite value stands for; 0 for NaN and the infinities. -/
def Num.val : Num → ℚ
  | .nan => 0
  | .inf _ => 0
  | .fin neg m e => (if neg then -1 else 1) * (m : ℚ) * 2 ^ e

/-- A value is finite. -/
def Num.isFin : Num → Bool
  | .nan => false
  | .inf _ => false
  | .fin _ _ _ => true

/-- The magnitude a pattern without its sign stands for, infinity counting as the next power of two. -/
def FpFmt.magVal (F : FpFmt) (k : Nat) : ℚ :=
  if k < 2 ^ (F.p - 1) then (k : ℚ) * 2 ^ F.qmin
  else ((k % 2 ^ (F.p - 1) + 2 ^ (F.p - 1) : Nat) : ℚ) * 2 ^ (F.qmin + (k / 2 ^ (F.p - 1) - 1 : Nat))

/-- A magnitude pattern is a positive real rounded (R47): toward zero the largest finite pattern at or below it, away from zero the
smallest at or above it with infinity for one beyond the largest finite value, to nearest no pattern lies nearer and an even one takes a tie. -/
def FpFmt.Rounded (F : FpFmt) (mode : Rnd) (neg : Bool) (x : ℚ) (k : Nat) : Prop :=
  match mode with
  | .rne => k ≤ F.inf ∧ (x < F.magVal F.inf → ∀ y ≤ F.inf, |F.magVal k - x| ≤ |F.magVal y - x| ∧
      (|F.magVal k - x| = |F.magVal y - x| → y = k ∨ k % 2 = 0)) ∧ (F.magVal F.inf ≤ x → k = F.inf)
  | .rtz => Toward k
  | .rdn => if neg then Away k else Toward k
  | .rup => if neg then Toward k else Away k
where
  Toward (k : Nat) : Prop := k < F.inf ∧ F.magVal k ≤ x ∧ ∀ y < F.inf, F.magVal y ≤ x → y ≤ k
  Away (k : Nat) : Prop := k ≤ F.inf ∧ (k < F.inf → x ≤ F.magVal k) ∧ ∀ y < F.inf, x ≤ F.magVal y → k ≤ y

/-! ## Results formed from several threads, from R127, R138–R144, R153, R154 and R216 -/

/-- The participants of a thread's segment that satisfy a condition, ascending (R130, R142). -/
def participants (cov : Mask) (n : Nat) (t : Lane) (p : Lane → Bool) : List Lane :=
  (List.finRange 32).filter (fun q => Mask.has cov q && decide (q.val / n = t.val / n) && p q)

/-- The combination of a list of values as a set (R141); the FP operations take them after DAZ (R143). -/
def combined (op : GOp) (rnd : Rnd) (c : Word) (xs : List Word) : Outs :=
  let ys := xs.map (fun x => (daz c x).toNat)
  if xs = [] then ⟨[gopIdentity op], false, false⟩
  else
    match op with
    | .add => ⟨[BitVec.ofNat 32 (xs.map BitVec.toNat).sum], false, false⟩
    | .and => ⟨[BitVec.ofFnLE (fun i : Fin 32 => xs.all (fun x => x.getLsbD i.val))], false, false⟩
    | .or => ⟨[BitVec.ofFnLE (fun i : Fin 32 => xs.any (fun x => x.getLsbD i.val))], false, false⟩
    | .xor => ⟨[BitVec.ofFnLE (fun i : Fin 32 => decide (xs.countP (fun x => x.getLsbD i.val) % 2 = 1))], false, false⟩
    | .minS => ⟨[BitVec.ofInt 32 (xs.foldr (fun x m => min x.toInt m) (2 ^ 31 - 1))], false, false⟩
    | .maxS => ⟨[BitVec.ofInt 32 (xs.foldr (fun x m => max x.toInt m) (-2 ^ 31))], false, false⟩
    | .minU => ⟨[BitVec.ofNat 32 (xs.foldr (fun x m => min x.toNat m) (2 ^ 32 - 1))], false, false⟩
    | .maxU => ⟨[BitVec.ofNat 32 (xs.foldr (fun x m => max x.toNat m) 0)], false, false⟩
    | .fadd => fpOuts c (FpFmt.f32.sum rnd (ys.map FpFmt.f32.num))
    | .fmin => ⟨[ftz c (BitVec.ofNat 32 (ys.foldr (FpFmt.f32.minMax false) FpFmt.f32.nan))], false, false⟩
    | .fmax => ⟨[ftz c (BitVec.ofNat 32 (ys.foldr (FpFmt.f32.minMax true) FpFmt.f32.nan))], false, false⟩

/-- Bits of a word, bit `i` of it given by `f i`. -/
def wordBits (f : Nat → Bool) : Word := BitVec.ofFnLE (fun i : Fin 32 => f i.val)

/-- The guard and destination of a word whose result takes the identity lay, whether it reads a dead thread, and what it gives each
covered thread. -/
def laneResult (h : Here) : Instr → Option (Guard × Reg × Bool × (Lane → Outs))
  | .bxpk g vd va fmt rnd =>
    let o (t : Lane) := bxEncode (sxW fmt) rnd ((List.range 16).map (fun i =>
      let q := laneOf (t.val / 16 * 16 + i)
      if Mask.has (h.cov g) q then (daz h.w.fpctl (h.w.read va.toNat q)).toNat else 0))
    some (g, vd, false, fun t => ⟨[BitVec.ofNat 32 ((o t).bits / 2 ^ (32 * (t.val % 16)))], (o t).inv, (o t).ovf⟩)
  | .bxupk g vd va fmt =>
    some (g, vd, bxDeadSource h.w (h.cov g) (sxWords fmt), fun t =>
      ⟨[ftz h.w.fpctl (BitVec.ofNat 32 (sxDecode (sxW fmt) (bxBlock h.w va.toNat (sxWords fmt) (t.val / 16 * 16)) (t.val % 16)))],
        false, false⟩)
  | .layrd g vd va b =>
    some (g, vd, false, fun t => ⟨[
      if b then BitVec.ofNat 32 (((h.w.reg va.toNat).base).getD va.toNat)
      else match (h.w.reg va.toNat).loc[t] with
        | none => 0x80000000
        | some e => BitVec.ofNat 32 e.val], false, false⟩)
  | .voteBallot g vd pc => some (g, vd, false, fun _ => ⟨[wordBits (fun i => Mask.has (h.cov g) (laneOf i) && h.w.pred pc (laneOf i))], false, false⟩)
  | .gred g vd va op wid rnd =>
    some (g, vd, false, fun t =>
      combined op rnd h.w.fpctl ((participants (h.cov g) wid.size t (fun _ => true)).map (h.w.read va.toNat)))
  | .gscan g vd va op wid rnd exc =>
    some (g, vd, false, fun t =>
      combined op rnd h.w.fpctl
        ((participants (h.cov g) wid.size t (fun q => decide (q < t) || (decide (q = t) && !exc))).map (h.w.read va.toNat)))
  | .matchv g vd va false d =>
    let v (t : Lane) : BitVec 64 := if d then h.w.read64 va.toNat t else (h.w.read va.toNat t).setWidth 64
    some (g, vd, false, fun t => ⟨[wordBits (fun i => Mask.has (h.cov g) (laneOf i) && decide (v (laneOf i) = v t))], false, false⟩)
  | .getex g vd hold => some (g, vd, false, fun _ => ⟨[if hold then h.w.slots[h.k].hold else h.w.slots[h.k].exec], false, false⟩)
  | .p2v g vd => some (g, vd, false, fun t => ⟨[wordBits (fun i => decide (i < 8) && h.w.pred (BitVec.ofNat 3 i) t)], false, false⟩)
  | .qget g vd q => some (g, vd, false, fun t => ⟨[(vget h.g.shapes q.toNat 0).extractLsb' (32 * (t.val % 16)) 32], false, false⟩)
  | _ => none

/-! ## Map edits, from R130–R136 and R411 -/

/-- A thread of another half in a Z5 wave is parked, and the reader reads its own value (R411). -/
def unparked (w : Wave) (t : Lane) (q : Nat) : Lane := if w.z5 && decide (16 ≤ q) then t else laneOf q

/-- The guard, destination, source register and source threads of a map edit. -/
def editFrom (h : Here) : Instr → Option (Guard × Reg × Reg × (Lane → Option Lane))
  | .shfl g vd vs vb wid z =>
    some (g, vd, vs, fun t =>
      let b := (h.w.read vb.toNat t).toNat
      if z ∧ wid.size ≤ b then none else some (unparked h.w t (t.val / wid.size * wid.size + b % wid.size)))
  | .shflx g vd vs wid k =>
    some (g, vd, vs, fun t => some (unparked h.w t (t.val / wid.size * wid.size + (t.val % wid.size ^^^ k.toNat))))
  | .shflup g vd vs wid k =>
    some (g, vd, vs, fun t => some (unparked h.w t (if k.toNat ≤ t.val % wid.size then t.val - k.toNat else t.val)))
  | .shfldn g vd vs wid k =>
    some (g, vd, vs, fun t => some (unparked h.w t (if t.val % wid.size + k.toNat < wid.size then t.val + k.toNat else t.val)))
  | .bcast g vd vs wid k => some (g, vd, vs, fun t => some (unparked h.w t (t.val / wid.size * wid.size + k.toNat)))
  | .lxpose g vd vs rows =>
    let nr := 2 ^ rows.toNat
    some (g, vd, vs, fun t => some (laneOf (t.val % nr * (32 / nr) + t.val / nr)))
  | .compact g vd vs pc =>
    let l := (List.finRange 32).filter (fun q => Mask.has (h.cov g) q && h.w.pred pc q)
    some (g, vd, vs, fun t => l[t.val]?)
  | .expand g vd vs pc =>
    let l := (List.finRange 32).filter (fun q => Mask.has (h.cov g) q && h.w.pred pc q)
    some (g, vd, vs, fun t => if t ∈ l then some (laneOf (l.countP (fun q => decide (q < t)))) else none)
  | _ => none

/-! ## Predicate results, from R117, R122, R140, R144 and R154 -/

/-- An ordering of two integers tested by a condition. -/
def icond (c : ICond) (a b : Int) : Bool :=
  match c, compare a b with
  | .eq, .eq | .ne, .lt | .ne, .gt | .lt, .lt | .le, .lt | .le, .eq | .gt, .gt | .ge, .gt | .ge, .eq => true
  | .eq, .lt | .eq, .gt | .ne, .eq | .lt, .eq | .lt, .gt | .le, .gt | .gt, .lt | .gt, .eq | .ge, .lt => false

/-- A comparison beside the old predicate (R117). -/
def comb (c : Comb) (r p : Bool) : Bool :=
  match c with
  | .none => r
  | .and => r && p
  | .or => r || p
  | .xor => xor r p

/-- The guard of a predicate word, the predicates it writes and what it gives a covered thread. -/
def predResult (h : Here) : Instr → Option (Guard × (PredNo → Bool) × (PredNo → Lane → Bool))
  | .icmp g pd va vb pc cond cb d u =>
    some (g, (· == pd), fun _ t => comb cb
      (if d then icond cond (signedOr u (h.w.read64 va.toNat t)) (signedOr u (h.w.read64 vb.toNat t))
       else icond cond (signedOr u (h.w.read va.toNat t)) (signedOr u (h.w.read vb.toNat t))) (h.w.pred pc t))
  | .fcmp g pd va vb pc cond cb =>
    some (g, (· == pd), fun _ t => comb cb (fcmp32 cond h.w.fpctl (h.w.read va.toNat t) (h.w.read vb.toNat t)) (h.w.pred pc t))
  | .plop g pd pa pb pc lut =>
    some (g, (· == pd), fun _ t =>
      lut.getLsbD ((h.w.pred pa t).toNat + 2 * (h.w.pred pb t).toNat + 4 * (h.w.pred pc t).toNat))
  | .v2p g va mask =>
    some (g, fun p => decide (p.toNat < 7) && mask.getLsbD p.toNat, fun p t => (h.w.read va.toNat t).getLsbD p.toNat)
  | .voteAny g pd pc =>
    some (g, (· == pd), fun _ _ => decide (∃ q, Mask.has (h.cov g) q = true ∧ h.w.pred pc q = true))
  | .voteAll g pd pc =>
    some (g, (· == pd), fun _ _ => decide (∀ q, Mask.has (h.cov g) q = true → h.w.pred pc q = true))
  | .voteEq g pd pc =>
    some (g, (· == pd), fun _ _ =>
      decide (∀ q r, Mask.has (h.cov g) q = true → Mask.has (h.cov g) r = true → h.w.pred pc q = h.w.pred pc r))
  | .matchv g vd va true d =>
    let v (t : Lane) : BitVec 64 := if d then h.w.read64 va.toNat t else (h.w.read va.toNat t).setWidth 64
    some (g, (· == vd.extractLsb' 0 3), fun _ _ =>
      decide (∀ q r, Mask.has (h.cov g) q = true → Mask.has (h.cov g) r = true → v q = v r))
  | _ => none

/-- A word whose effects are predicate results: no register, no other predicate, no uncovered thread's bit and nothing else changes
but the pc; a predicate written is no longer uncorrectable; writes to p7 are discarded (R17, R303). -/
structure SetsPreds (s t : State) (h : Here) (cov : Mask) (written : PredNo → Bool) (value : PredNo → Lane → Bool) (w' : Wave) : Prop where
  next : t = s.putWave h (w'.advance h.k)
  rest : w' = { h.w with preds := w'.preds, badPreds := w'.badPreds }
  bit : ∀ p t, w'.pred p t =
    if p ≠ 7 ∧ written p = true ∧ Mask.has cov t = true then value p t else h.w.pred p t
  bad : ∀ b ∈ w'.badPreds, b ∈ h.w.badPreds

/-! ## Lays of results, from R38 -/

/-- What any thread's word of the integer or floating-point group gives of its sources. -/
def wordOuts (w : Wave) (i : Instr) (t : Lane) (xs : List Word) : Outs :=
  match intResult w i with
  | some (_, f) => ⟨f t xs, false, false⟩
  | none =>
    match fpResult w.fpctl i with
    | some (_, f) => f xs
    | none => ⟨[], false, false⟩

/-- The entries a source has when a result is formed: a register that borrows from a destination is materialised first (R35, R38 step 1). -/
def Wave.layFor (w : Wave) (dests : List Nat) (r : Nat) : LocMap :=
  if (w.reg r).base.any (fun b => decide (b ∈ dests)) then w.ident else (w.reg r).loc

/-- The lay a result takes from its sources: the word covers fully, and at least one source is not tagged uniform and all those have the
same entries (R38 steps 1–3). -/
def Wave.SharesLay (w : Wave) (cov : Mask) (dests srcs : List Nat) (lay : LocMap) : Prop :=
  (∀ t, Mask.has w.alive t = true → Mask.has cov t = true) ∧ (∃ r ∈ srcs, (w.reg r).tag ≠ .uniform) ∧
    ∀ r ∈ srcs, (w.reg r).tag ≠ .uniform → w.layFor dests r = lay

/-! ## Pair words, from R84 and R128 -/

/-- The full word whose effect a pair opcode has (R128). -/
def fullWord (op : PairOp) (g : Guard) (vd vs : Reg) : Instr :=
  match op with
  | .mov => .mov g vd vs false
  | .iadd => .iadd g vd vd vs false false
  | .isub => .isub g vd vd vs false false
  | .imul => .imul g vd vd vs false false
  | .iminS => .imin g vd vd vs false
  | .imaxS => .imax g vd vd vs false
  | .iminU => .imin g vd vd vs true
  | .imaxU => .imax g vd vd vs true
  | .and => .and g vd vd vs
  | .or => .or g vd vd vs
  | .xor => .xor g vd vd vs
  | .shl => .shl g vd vd vs false
  | .shr => .shr g vd vd vs false
  | .sar => .sar g vd vd vs false
  | .popc => .popc g vd vs
  | .clz => .clz g vd vs
  | .fadd => .fadd g vd vd vs .rne
  | .fsub => .fsub g vd vd vs .rne
  | .fmul => .fmul g vd vd vs .rne
  | .fmin => .fmin g vd vd vs
  | .fmax => .fmax g vd vd vs
  | .pkaddBf => .pkadd g vd vd vs false .rne
  | .pkmulBf => .pkmul g vd vd vs false .rne

/-- What a slot gives a thread: the full word's result of the destination and the second operand as they stood before the pair word. -/
def slotOuts (w : Wave) (op : PairOp) (a : PairArgs) (t : Lane) : Outs :=
  let b := match a.src with
    | .reg vs => w.read vs.toNat t
    | .imm i => i.signExtend 32
  wordOuts w (fullWord op a.g a.vd 0) t
    (match op with
     | .mov | .popc | .clz => [b]
     | _ => [w.read a.vd.toNat t, b])

/-- The registers a slot reads. -/
def slotReads (op : PairOp) (a : PairArgs) : List Nat :=
  (match op with
   | .mov | .popc | .clz => []
   | _ => [a.vd.toNat]) ++
  (match a.src with
   | .reg vs => [vs.toNat]
   | .imm _ => [])

/-! ## Trits, from R59–R62, R200 and R201 -/

/-- Trit `i` in the register trit code; none for the illegal code (R62). -/
def tritAt (x : Word) (i : Nat) : Option Int :=
  match x.toNat / 4 ^ i % 4 with
  | 0 => some 0
  | 1 => some 1
  | 3 => some (-1)
  | _ => none

/-- Trit `i` of a T5 image; none where its byte is no T5 byte (R58, R59). -/
def t5At (x : Word) (i : Nat) : Option Int :=
  let b := x.toNat / 256 ^ (i / 5) % 256
  if 243 ≤ b then none
  else
    match b / 3 ^ (i % 5) % 3 with
    | 0 => some 0
    | 1 => some 1
    | _ => some (-1)

/-- The masks with exactly two bits in every row and column, ascending (R61): rows are nibbles, row 3 the highest. -/
def legalMasks : List Nat :=
  let rows := [3, 5, 6, 9, 10, 12]
  (rows.flatMap (fun d => rows.flatMap (fun c => rows.flatMap (fun b => rows.map (fun a => [a, b, c, d]))))).filter
    (fun r => (List.range 4).all (fun k => decide (r.countP (fun x => x / 2 ^ k % 2 = 1) = 2)))
    |>.map (fun r => r.foldr (fun x n => n * 16 + x) 0)

/-- Trit `i` = 4·row + col of a T24S word; none where its pattern index names no mask (R60). -/
def t24At (x : Word) (i : Nat) : Option Int :=
  match legalMasks[x.toNat % 128]? with
  | none => none
  | some m =>
    if m / 2 ^ i % 2 = 0 then some 0
    else if x.toNat / 2 ^ (7 + (List.range i).countP (fun j => m / 2 ^ j % 2 = 1)) % 2 = 0 then some 1 else some (-1)

/-- A ternary word's guard, destination, source, the values it takes, and how its result relates to its operand. -/
def tritResult : Instr → Option (Guard × Reg × Reg × (Word → Prop) × (Word → Word → Prop))
  | .trpk g vd va => some (g, vd, va, fun x => ∀ i < 16, tritAt x i ≠ none,
      fun x y => (∀ i < 16, t5At y i = tritAt x i) ∧ y.toNat / 2 ^ 24 < 3)
  | .trupk g vd va => some (g, vd, va, fun x => ∀ i < 4, x.toNat / 256 ^ i % 256 < 243, fun x y => ∀ i < 16, tritAt y i = t5At x i)
  | .trspk g vd va => some (g, vd, va,
      fun x => (∀ i < 16, tritAt x i ≠ none) ∧
        (∀ r < 4, (List.range 4).countP (fun c => decide (tritAt x (4 * r + c) ≠ some 0)) = 2) ∧
        (∀ c < 4, (List.range 4).countP (fun r => decide (tritAt x (4 * r + c) ≠ some 0)) = 2),
      fun x y => (∀ i < 16, t24At y i = tritAt x i) ∧ y.toNat < 2 ^ 15)
  | .trsupk g vd va => some (g, vd, va, fun x => x.toNat % 128 < 90, fun x y => ∀ i < 16, tritAt y i = t24At x i)
  | _ => none

/-! ## Control words of one slot, from R91, R147, R149, R152 and R153 -/

/-- Threads of a mask whose value differs from that of the lowest (R91). -/
def dissenters {α : Type} [DecidableEq α] (cov : Mask) (f : Lane → α) : Mask :=
  wordBits (fun i => Mask.has cov (laneOf i) && decide (f (laneOf i) ≠ f (Mask.lowest cov)))

/-- The slot after its word: its next address, EXEC and HOLD, ready again. -/
def PathSlot.went (p : PathSlot) (pc : Addr) (exec hold : Mask) (yielded : Bool) : PathSlot :=
  { p with pc := pc, exec := exec, hold := hold, wait := none, starved := 0, yielded := yielded, spawned := 0, got := [] }

/-- The slot a control word leaves where it changes no more than its own slot, or the trap it raises. -/
def slotResult (h : Here) (i : Instr) : Option (Except Trap PathSlot) :=
  let p := h.w.slots[h.k]
  let on := p.went (p.pc + 8) p.exec p.hold false
  let jump (off : BitVec 24) := p.pc + BitVec.ofInt 64 (8 * off.toInt)
  let aside (m : Mask) : Except Trap PathSlot :=
    if p.exec &&& ~~~m = 0 then .error (Trap.of .illegalConvergence p.exec)
    else .ok (p.went (p.pc + 8) (p.exec &&& ~~~m) (p.hold ||| m) false)
  match i with
  | .nop _ => some (.ok on)
  | .yield _ => some (.ok { on with yielded := true, rest := 2 })
  | .bra g tgt _ =>
    if h.cov g = p.exec then some (.ok (p.went (jump tgt) p.exec p.hold false))
    else if h.cov g = 0 then some (.ok on) else none
  | .braAny g tgt => some (.ok (if h.cov g = 0 then on else p.went (jump tgt) p.exec p.hold false))
  | .brx g va =>
    if h.cov g = 0 then some (.ok on)
    else if h.cov g ≠ p.exec then some (.error (Trap.of .illegalConvergence p.exec))
    else
      let no := dissenters (h.cov g) (h.w.read64 va.toNat)
      let a := h.w.read64 va.toNat (Mask.lowest (h.cov g))
      if no ≠ 0 then some (.error (Trap.of .illegalConvergence no))
      else if a.toNat % 8 = 0 ∧ -2 ^ 56 ≤ a.toInt ∧ a.toInt < 2 ^ 56 then some (.ok (p.went a p.exec p.hold false))
      else some (.error (Trap.named h.w .misaligned (h.cov g) (if a.toNat % 8 = 0 then va.toNat + 1 else va.toNat) a))
  | .setexP g pc => some (aside (wordBits (fun i => Mask.has (h.cov g) (laneOf i) && !h.w.pred pc (laneOf i))))
  | .setexV g va =>
    let no := dissenters (h.cov g) (h.w.read va.toNat)
    if no ≠ 0 then some (.error (Trap.of .illegalConvergence no))
    else
      let m := h.w.read va.toNat (Mask.lowest (h.cov g))
      some (aside (h.cov g &&& ~~~m))
  | .setexRst => some (.ok (p.went (p.pc + 8) (p.exec ||| p.hold) 0 false))
  | _ => none

/-! ## Words that work on the paths of a wave, from R146–R148, R150 and R239 -/

/-- The path words of a slot that act as the manual gives them beyond their own slot: a divergent BRA, JOIN, CALL and RET. Memory words
numbered below `n` come before the later ones of a side that starts and of a merge (R266). -/
def pathResult (h : Here) (i : Instr) (n : Nat) : Option (Except Trap Wave) :=
  let w := h.w
  let p := w.slots[h.k]
  let other := w.slots[otherSlot h.k]
  let trap : Except Trap Wave := .error (Trap.of .illegalConvergence p.exec)
  let jump (off : BitVec 24) := p.pc + BitVec.ofInt 64 (8 * off.toInt)
  let slot (w : Wave) (q : PathSlot) : Wave := { w with slots := w.slots.set h.k q }
  let owner := if other.live then ownerOf h.k else .shared
  let pushed (e : Entry) : Wave :=
    { w with stack := e :: w.stack, spilled := if 32 ≤ w.stack.length - w.spilled then w.spilled + 8 else w.spilled }
  let on := slot w (p.went (p.pc + 8) p.exec p.hold false)
  let living (m : Mask) := m &&& w.alive
  match i with
  | .bra g tgt join =>
    let F := p.exec &&& ~~~h.cov g
    if h.cov g = 0 ∨ F = 0 then none
    else if join = 0 ∨ p.hold ≠ 0 then some trap
    else if other.live ∨ p.pair.isSome then
      some (if 1024 ≤ w.stack.length then trap
        else .ok (slot (pushed (.diverge owner (p.pc + 8) F (jump join) p.exec)) { p.went (jump tgt) (h.cov g) p.hold false with after := n }))
    else if h.k = 0 then
      some (.ok { w with slots := #v[{ p.went (p.pc + 8) F 0 false with live := true, pair := some (jump join), after := n, afterAll := n },
        { PathSlot.empty with
          live := true
          pc := jump tgt
          exec := h.cov g
          pair := some (jump join)
          label := if p.label = 0 then 1 else 0
          after := n
          afterAll := n }] })
    else none
  | .join =>
    if p.pair = some p.pc then
      if p.hold ≠ 0 then some trap
      else if other.live then
        if w.stack.any (fun e => e.owner == ownerOf h.k) then some trap
        else if other.wait = some .join ∧ w.slots[(0 : Fin 2)].pair = some p.pc then
          some (.ok { w with slots := #v[{ w.slots[(0 : Fin 2)] with
            exec := living (p.exec ||| other.exec), hold := 0, pc := p.pc + 8, pair := none, wait := none, after := n, afterAll := n
            starved := if h.k = 0 then 0 else w.slots[(0 : Fin 2)].starved
            yielded := if h.k = 0 then false else w.slots[(0 : Fin 2)].yielded }, PathSlot.empty] })
        else if other.wait = some .join then none
        else some (.ok (slot w { p with wait := some .join, starved := 0, yielded := false }))
      else some (.ok { w with slots := #v[{ p with
        pc := p.pc + 8, pair := none, wait := none, starved := 0, yielded := false, after := n, afterAll := n }, PathSlot.empty] })
    else
      match (w.topIndex h.k).bind (fun m => (w.stack[m]?).map (fun e => (m, e))) with
      | some (x, .diverge o pc m j u) =>
        if j ≠ p.pc then some (.ok on)
        else if p.hold ≠ 0 then some trap
        else if living m ≠ 0 then
          some (.ok (slot { w with stack := w.stack.set x (.diverge o pc 0 j u) } { p.went pc (living m) 0 false with after := n }))
        else if living u ≠ 0 then some (.ok (slot (w.popAt x) { p.went (p.pc + 8) (living u) 0 false with after := n }))
        else none
      | some (_, .call _ _) => some (.ok on)
      | none => some (.ok on)
  | .call g tgt =>
    if h.cov g = 0 then some (.ok on)
    else if h.cov g ≠ p.exec ∨ p.hold ≠ 0 ∨ 1024 ≤ w.stack.length then some trap
    else some (.ok (slot (pushed (.call owner (p.pc + 8))) (p.went (jump tgt) p.exec p.hold false)))
  | .ret g =>
    if h.cov g = 0 then some (.ok on)
    else if h.cov g ≠ p.exec ∨ p.hold ≠ 0 then some trap
    else
      match (w.topIndex h.k).bind (fun m => (w.stack[m]?).map (fun e => (m, e))) with
      | some (x, .call o r) =>
        some (if o = .shared ∧ other.live then trap else .ok (slot (w.popAt x) (p.went r p.exec p.hold false)))
      | some (_, .diverge _ _ _ _ _) => some trap
      | none => some trap
  | _ => none

/-- A slot that has lost its last thread ends (R151, R434): alone it ends its wave; beside a live slot its own entries go, and that slot is the
lone slot 0 and the owner of its own entries no more, and goes on past the pair join it waits at. -/
def Wave.SlotEnds (w : Wave) (k : Fin 2) (n : Nat) (w' : Wave) : Prop :=
  let q := w.slots[otherSlot k]
  (q.live = false → w' = { w with slots := #v[PathSlot.empty, PathSlot.empty], ended := true }) ∧
    (q.live = true →
      w' = { w with slots := w'.slots, stack := w'.stack, spilled := w'.spilled } ∧
      w'.slots = #v[
        match q.wait, q.pair with
        | some .join, some j =>
          { q with pc := j + 8, pair := none, wait := none, starved := 0, yielded := false, after := n, afterAll := n }
        | _, _ => q, PathSlot.empty] ∧
      w'.stack = (w.stack.filter (fun e => decide (e.owner ≠ ownerOf k))).map (fun e => match e with
        | .diverge o pc m j u => .diverge .shared pc m j u
        | .call o r => .call .shared r) ∧
      w'.spilled = w.spilled - (w.stack.drop (w.stack.length - w.spilled)).countP (fun e => decide (e.owner = ownerOf k)))

/-- What becomes of a slot without EXEC (R151, R148): its held threads go on at `next`; else its top divergence entry gives the living
threads of its pending side, or of its union once it is popped; else, and where neither lives, the steps are taken again; with no such
entry at its top the slot ends. -/
inductive Wave.Empties (k : Fin 2) (next : Addr) (n : Nat) : Wave → Wave → Prop
  | held (w : Wave) : w.slots[k].exec = 0 → w.slots[k].hold ≠ 0 →
      Wave.Empties k next n w { w with slots := w.slots.set k ({ w.slots[k] with
        exec := w.slots[k].hold, hold := 0, pc := next, wait := none, spawned := 0, got := [] } : PathSlot) }
  | pending (w : Wave) (x : Nat) (o : Owner) (pc : Addr) (m : Mask) (j : Addr) (u : Mask) : w.slots[k].exec = 0 → w.slots[k].hold = 0 →
      w.topIndex k = some x → w.stack[x]? = some (.diverge o pc m j u) → m &&& w.alive ≠ 0 →
      Wave.Empties k next n w { w with
        stack := w.stack.set x (.diverge o pc 0 j u)
        slots := w.slots.set k ({ w.slots[k] with exec := m &&& w.alive, pc := pc, wait := none, spawned := 0, got := [], after := n } : PathSlot) }
  | union (w : Wave) (x : Nat) (o : Owner) (pc : Addr) (m : Mask) (j : Addr) (u : Mask) : w.slots[k].exec = 0 → w.slots[k].hold = 0 →
      w.topIndex k = some x → w.stack[x]? = some (.diverge o pc m j u) → m &&& w.alive = 0 → u &&& w.alive ≠ 0 →
      Wave.Empties k next n w { w.popAt x with
        slots := w.slots.set k ({ w.slots[k] with exec := u &&& w.alive, pc := j + 8, wait := none, spawned := 0, got := [], after := n } : PathSlot) }
  | gone (w w1 w' : Wave) (x : Nat) (o : Owner) (pc : Addr) (m : Mask) (j : Addr) (u : Mask) : w.slots[k].exec = 0 → w.slots[k].hold = 0 →
      w.topIndex k = some x → w.stack[x]? = some (.diverge o pc m j u) → m &&& w.alive = 0 → u &&& w.alive = 0 →
      w1 = { w.popAt x with
        slots := w.slots.set k ({ w.slots[k] with exec := 0, pc := j + 8, wait := none, spawned := 0, got := [], after := n } : PathSlot) } →
      Wave.Empties k next n w1 w' → Wave.Empties k next n w w'
  | ends (w w' : Wave) : w.slots[k].exec = 0 → w.slots[k].hold = 0 →
      (∀ x o pc m j u, w.topIndex k = some x → w.stack[x]? ≠ some (.diverge o pc m j u)) → w.SlotEnds k n w' → Wave.Empties k next n w w'

/-- No thread has arrived at a barrier of the issuing wave's group or gang, or waits to. -/
def State.noneArrived (s : State) (h : Here) : Prop :=
  (∀ g, Map.find s.groups h.ctx = some g → (∀ b ∈ g.bars, b.arrived = []) ∧ ∀ w ∈ g.waves, ∀ b ∈ w.bars, b.arrived = []) ∧
    ∀ x, Map.find s.gangs h.g.gang = some x → (∀ b ∈ x.clusterBars, b.arrived = []) ∧ ∀ b ∈ x.gridBars, b.arrived = []

/-- A bin of a key that still takes threads is the last of the key: filled ones, and those whose timer expired in an earlier clock, take none (R155,
R236). -/
def Core.lastOpen (c : Core) (ctx : Nat) (key : Addr) : Prop :=
  ∀ (i j : Nat) (a b : Bin), i < j → c.bins[i]? = some a → c.bins[j]? = some b → a.ctx = ctx → b.ctx = ctx → a.key = key → b.key = key →
    a.threads.length < 32 → a.launching = true ∧ a.since ≠ c.clock.toNat

/-- Threads of a core's bins of one key and context, with their arguments and the wave that sent each (R155). -/
def Core.binThreads (c : Core) (ctx : Nat) (key : Addr) : List (Word × Word × Nat) :=
  (c.bins.filter (fun b => decide (b.ctx = ctx ∧ b.key = key))).flatMap Bin.threads

/-! ## Memory words, from R156–R176 -/

/-- The access a memory word asks of its issuing slot: effective addresses, data and mask operands (R77, R79, R156, R162–R176). LD2S makes
checks of its own before its access. -/
def accessOf (s : State) (h : Here) (i : Instr) : Option MemWord :=
  let global (va : Reg) (off : BitVec 12) : Vector Addr 32 := Vector.ofFn (fun t => h.w.read64 va.toNat t + BitVec.ofInt 64 off.toInt)
  let scratch (va : Reg) (off : BitVec 12) : Vector Addr 32 :=
    Vector.ofFn (fun t => (h.w.read va.toNat t + BitVec.ofInt 32 off.toInt).setWidth 64)
  let uniform (g : Guard) (rs : List Nat) := h.w.full (h.cov g) && rs.all (fun r => (h.w.reg r).tag == .uniform)
  let regs (n : Nat) (r : Reg) := (List.range n).map (fun k => r.toNat + k)
  let pair (one : Prop) [Decidable one] (va : Reg) : List Nat := if one then [va.toNat] else [va.toNat, va.toNat + 1]
  match i with
  | .ld g vd va m off => some (h.memWord s g ⟨.load, m.space, m.size.bytes, m.sx, m.order, m.scope, .add, regs m.size.regs vd,
      uniform g [va.toNat, va.toNat + 1]⟩ (global va off) [] va.toNat [va.toNat, va.toNat + 1])
  | .st g vd va m off => some (h.memWord s g ⟨.store, m.space, m.size.bytes, m.sx, m.order, m.scope, .add, [], false⟩ (global va off)
      (regs m.size.regs vd) vd.toNat [va.toNat, va.toNat + 1])
  | .lds g vd va m off => some (h.memWord s g ⟨.load, m.space, m.size.bytes, m.sx, m.order, m.scope, .add, regs m.size.regs vd,
      uniform g [va.toNat]⟩ (scratch va off) [] va.toNat [va.toNat])
  | .sts g vd va m off => some (h.memWord s g ⟨.store, m.space, m.size.bytes, m.sx, m.order, m.scope, .add, [], false⟩ (scratch va off)
      (regs m.size.regs vd) vd.toNat [va.toNat])
  | .ldu g vd va vb m off =>
    some { h.memWord s g ⟨.ldu, m.space, m.size.bytes, m.sx, m.order, m.scope, .add, regs m.size.regs vd, false⟩
        (if m.space = .scratch then scratch va off else global va off) [] va.toNat
        (pair (m.space = .scratch) va ++ [vb.toNat]) with aux := h.w.readRow vb.toNat }
  | .stu g vd va vb m off =>
    some { h.memWord s g ⟨.stu, m.space, m.size.bytes, m.sx, m.order, m.scope, .add, [], false⟩
        (if m.space = .scratch then scratch va off else global va off) (regs m.size.regs vd) vd.toNat
        (pair (m.space = .scratch) va ++ [vb.toNat]) with aux := h.w.readRow vb.toNat }
  | .atom g vd va vb a off =>
    some (h.memWord s g ⟨.atom, if a.scratch then .scratch else .global, if a.wide then 8 else 4, false, a.order, a.scope, a.aop,
      regs (if a.wide then 2 else 1) vd, false⟩ (if a.scratch then scratch va off else global va off) (regs (if a.wide then 2 else 1) vb) vb.toNat
        (pair (a.scratch = true) va))
  | .red g va vb a off =>
    some (h.memWord s g ⟨.red, if a.scratch then .scratch else .global, if a.wide then 8 else 4, false, a.order, a.scope, a.aop, [], false⟩
      (if a.scratch then scratch va off else global va off) (regs (if a.wide then 2 else 1) vb) vb.toNat
        (pair (a.scratch = true) va))
  | .cas g vd va vb a off =>
    some (h.memWord s g ⟨.cas, if a.scratch then .scratch else .global, if a.wide then 8 else 4, false, a.order, a.scope, a.aop,
      regs (if a.wide then 2 else 1) vd, false⟩ (if a.scratch then scratch va off else global va off) (regs (if a.wide then 4 else 2) vb) vb.toNat
        (pair (a.scratch = true) va))
  | .mscmd g vd va off =>
    some { h.memWord s g ⟨.mscmd, .global, 4, false, .rel, .memside, .add, [], false⟩ (global va off) [vd.toNat] vd.toNat
        [va.toNat, va.toNat + 1] with telems := Vector.replicate 32 0x80000000, highs := Vector.replicate 32 0x80000000 }
  | _ => none

/-- Covered threads whose address is no multiple of the access size; LDU and STU take any (R159, R164). -/
def MemWord.Off (m : MemWord) (t : Lane) : Prop :=
  Mask.has m.cov t = true ∧ m.spec.kind ≠ .ldu ∧ m.spec.kind ≠ .stu ∧ m.addrs[t].toNat % m.spec.size ≠ 0

/-- Covered threads that access a byte whose address is not canonical (R435). -/
def MemWord.Wild (m : MemWord) (t : Lane) : Prop :=
  Mask.has m.cov t = true ∧ m.offsets t ≠ [] ∧ (m.addrs[t].toInt < -2 ^ 56 ∨ 2 ^ 56 ≤ m.addrs[t].toInt)

/-- The trap of the threads of a mask, named by TELEM and the address of the lowest (R42, R160). -/
def MemWord.fault (m : MemWord) (cause : Cause) (mask : Mask) : Trap :=
  ⟨cause, mask, Mask.lowest mask, m.telems[Mask.lowest mask], m.addrs[Mask.lowest mask]⟩

/-- The access may go ahead at once: threads are covered, aligned and canonical, nothing earlier holds the word back, and every place it
touches is granted. `s1` is the state with the word's number taken and its pages translated, `at_` where a thread's byte goes. -/
structure MemWord.Granted (m : MemWord) (s : State) (h : Here) (s1 : State) (at_ : Lane → Nat → Option Target) : Prop where
  some : m.cov ≠ 0
  aligned : ∀ t, ¬ m.Off t
  free : s.heldBack h m = false
  now : s.deferred = false
  number : s.awaited h.g.core s.nextId = 0
  room : m.spec.space = .global → s.remoteFullFor h.g.core h.ctx h.g m = false
  place :
    (m.spec.space = .scratch ∧ (∀ t, Mask.has m.cov t = true → s.scratchPermits h.ctx h.g m t = true) ∧
      s1 = s.takeId ∧ at_ = s.scratchGoes h.ctx h.g m) ∨
    (m.spec.space = .global ∧ (∀ t, ¬ m.Wild t) ∧ ∃ ls,
      s.takeId.attempt h.g.core h.g.part h.g.asid m m.cov (m.pages m.cov) = (s1, .ready ls) ∧ at_ = s1.goes h.g.part ls m)

/-- A word in flight that has had no effect yet, of a wave in which no thread that it covers has died (R243, R305). -/
structure MemWord.InFlight (m : MemWord) (s : State) (core id : Nat) (g : Group) (w : Wave) : Prop where
  here : Map.find (s.core core).reqs id = some m
  unlogged : Map.find (s.core core).log id = none
  group : Map.find s.groups m.ctx = some g
  wave : g.waves[m.wave]? = some w
  living : m.cov &&& w.dead = 0
  waits : m.performed = false
  whole : m.applied = 0 ∧ m.returns = Vector.replicate 32 0 ∧ m.badLanes = 0 ∧ m.tokens = [] ∧ m.parked = false
  alone : s.awaited core id = 0

/-- Where the threads of a word in flight go: its pages translated in `s1` where it names memory. -/
def MemWord.Goes (m : MemWord) (s s1 : State) (core : Nat) (g : Group) (at_ : Lane → Nat → Option Target) : Prop :=
  (m.spec.space = .scratch ∧ s1 = s ∧ at_ = s.scratchGoes m.ctx g m) ∨
  (m.spec.space = .global ∧ ∃ ls, s.attempt core g.part g.asid m m.cov (m.pages m.cov) = (s1, .ready ls) ∧ at_ = s1.goes g.part ls m)

/-- Threads of a word that access a 64 KiB page, by its number. -/
def MemWord.onPage (m : MemWord) (p : Nat) : Mask := wordBits (fun i => Mask.has m.cov (laneOf i) && decide (m.va (laneOf i) 0 / 65536 = p))

/-- Pages of an atomic are mapped and grant it one after another, as it is applied (R174); `place` is where a thread's location lies, and the last
state is the one after them. -/
def MemWord.PagesGrant (m : MemWord) (h : Here) (id : Nat) (place : Lane → Target) : State → List Nat → State → Prop
  | s, [], u => u = s
  | s, p :: ps, u => ∃ s1 ls, s.attempt h.g.core h.g.part h.g.asid m (m.onPage p) [p] = (s1, .ready ls) ∧
      (∀ q, Mask.has (m.onPage p) q = true → s1.goes h.g.part ls m q 0 = some (place q)) ∧
      m.PagesGrant h id place (s1.atomLanes h.g.core h.g.part id (s1.goes h.g.part ls m) m (m.onPage p)).1 ps u

/-- A byte at a place from its first one on; only memory of the device and the host and the scratchpads hold bytes. -/
def State.byteAt (s : State) (t : Target) (i : Nat) : Byte :=
  match t with
  | .dev ga _ => Memory.read s.mem (ga + i)
  | .host a => Memory.read s.hostMem (a + i)
  | .scratch ctx off => ((Map.find s.groups ctx).map (fun g => Map.get g.scratch (off + i) 0)).getD 0
  | .share gang off => ((Map.find s.gangs gang).map (fun g => Map.get g.scratch (off + i) 0)).getD 0
  | .mmio _ => 0
  | .peer _ _ => 0

/-- The first `n` bytes at a place are memory of this device or its host that reads correctly under the key (R303, R369). -/
def State.sound (s : State) (part : Nat) (t : Target) (n : Nat) : Prop :=
  match t with
  | .dev ga key => ∀ i < n, s.clean part (ga + i) key = true
  | .host a => ∀ i < n, (a + i) / 64 ∉ s.badHost
  | .scratch ctx off => ∀ g, Map.find s.groups ctx = some g → ∀ i < n, (off + i) / 4 ∉ g.badScratch
  | .share gang off => ∀ x, Map.find s.gangs gang = some x → ∀ i < n, (off + i) / 4 ∉ x.badScratch
  | .mmio _ => False
  | .peer _ _ => False

/-- Byte `i` of what lies at a window place, as R254 lays it out, where it reads correctly. -/
def State.windowByte (s : State) (a : WinAt) (i : Nat) : Option Byte :=
  let part (x : Nat) (k : Nat) : Byte := BitVec.ofNat 8 (x / 256 ^ k)
  let tile (c t : Nat) : Tile := vget (s.core c).tiles t Tile.zero
  let el (c t n : Nat) : Option Elem := if (tile c t).badAnchor = true ∨ n ∈ (tile c t).bad then none else some ((tile c t).el (n / 256) (n % 256))
  match a with
  | .reg c p w e =>
    match s.winReg c p w with
    | none => some (part (Map.get (s.core c).freeRegs (32768 * p + 32 * w + e + i / 4) 0).toNat (i % 4))
    | some (ctx, wv, r) => (s.waveOf ctx wv).bind (fun x =>
        if (r, e + i / 4) ∈ x.badElems then none else some (part (vget (x.reg r).elems (e + i / 4) 0).toNat (i % 4)))
  | .scratch c off =>
    match s.winScratch a with
    | some (.scratch ctx o) => (Map.find s.groups ctx).bind (fun g => if (o + i) / 4 ∈ g.badScratch then none else some (Map.get g.scratch (o + i) 0))
    | _ => some (Map.get (s.core c).freeScratch (off + i) 0)
  | .share k off =>
    match s.winScratch a with
    | some (.share n o) => (Map.find s.gangs n).bind (fun g => if (o + i) / 4 ∈ g.badScratch then none else some (Map.get g.scratch (o + i) 0))
    | _ => some (Map.get (s.cluster k).freeScratch (off + i) 0)
  | .x c t n w => (el c t n).map (fun x => part x.x.toNat (4 * w + i))
  | .trits c act row w =>
    some (part (((List.range 16).map (fun j => tritBits ((s.core c).physTrit ((s.core c).plane act) row (16 * w + j)) * 4 ^ j)).sum) i)
  | .scale c act n => some (part (Map.get ((s.core c).plane act).scales n 0x3F800000).toNat i)
  | .rowsum c act k => some (part (BitVec.ofInt 32 (Map.get ((s.core c).plane act).rowsums k 0)).toNat i)
  | .flags c t n => (el c t (n + i)).map (fun x => BitVec.ofNat 8 (x.inexact.toNat + 2 * x.overflow.toNat + 4 * x.poison.toNat))
  | .anchor c t => if (tile c t).badAnchor = true then none else some (part ((tile c t).anchor.toNat + 65536 * (tile c t).chk.toNat) i)

/-- A covered thread of a window word may not access the place it names (R255). -/
def MemWord.WinDenied (m : MemWord) (s : State) (part : Nat) (t : Lane) : Prop :=
  Mask.has m.cov t = true ∧ ∀ x, winAt m.addrs[t] = some x →
    x.sizeOk m.spec.size = false ∨ (s.part part).hasCluster x.cluster = false ∨ (m.spec.kind = .store ∧ x.takes (BitVec.ofNat 32 (m.datum t)) = false)

/-- The value a thread loads: its bytes in little-endian order, those it does not access 0. -/
def MemWord.value (m : MemWord) (s : State) (at_ : Lane → Nat → Option Target) (t : Lane) : Nat :=
  ((m.usedRuns t).flatMap (fun run => (List.range run.2).map (fun i =>
    if run.1 + i ∈ m.offsets t then
      ((at_ t run.1).map (fun p => (s.byteAt p i).toNat)).getD 0 * 256 ^ (run.1 + i) else 0))).sum

/-- Word `j` of a loaded value in its registers: a byte or a half-word is extended by SX (R162). -/
def MemWord.wordOf (m : MemWord) (v j : Nat) : Word :=
  if m.spec.size < 4 ∧ m.spec.sx = true ∧ 2 ^ (8 * m.spec.size - 1) ≤ v then BitVec.ofInt 32 ((v : Int) - 2 ^ (8 * m.spec.size))
  else BitVec.ofNat 32 (v / 2 ^ (32 * j))

/-- The bytes that a store's covered threads write, in the order of their threads: where each goes. -/
def MemWord.writes (m : MemWord) (at_ : Lane → Nat → Option Target) : List (Target × Nat × Byte) :=
  (Mask.lanes m.cov).flatMap (fun t => (m.usedRuns t).flatMap (fun run =>
    ((List.range run.2).filter (fun i => decide (run.1 + i ∈ m.offsets t))).filterMap (fun i =>
      (at_ t run.1).map (fun p => (p, i, BitVec.ofNat 8 (m.datum t / 256 ^ (run.1 + i)))))))

/-- The last byte written to an address of device memory, or to one of a context's scratchpad. -/
def lastByte (ws : List (Target × Nat × Byte)) (p : Target → Option Nat) (a : Nat) : Option Byte :=
  (ws.reverse.find? (fun w => decide (p w.1 = some (a - w.2.1) ∧ w.2.1 ≤ a))).map (fun w => w.2.2)

/-- The address of a place in device memory. -/
def Target.devAddr : Target → Option Nat
  | .dev ga _ => some ga
  | .host _ => none
  | .mmio _ => none
  | .peer _ _ => none
  | .scratch _ _ => none
  | .share _ _ => none

/-- The offset of a place in a context's scratchpad. -/
def Target.ownOffset (ctx : Nat) : Target → Option Nat
  | .scratch c off => if c = ctx then some off else none
  | .dev _ _ => none
  | .host _ => none
  | .mmio _ => none
  | .peer _ _ => none
  | .share _ _ => none

/-- Two runs of `n` bytes share none. -/
def Target.Apart (n : Nat) : Target → Target → Prop
  | .dev a _, .dev b _ => a + n ≤ b ∨ b + n ≤ a
  | .scratch c a, .scratch d b => c ≠ d ∨ a + n ≤ b ∨ b + n ≤ a
  | _, _ => True

/-- A place in device memory under a key, or in the issuing group's scratchpad. -/
def Target.near (ctx key : Nat) : Target → Prop
  | .dev _ k => k = key
  | .scratch c _ => c = ctx
  | .host _ => False
  | .mmio _ => False
  | .peer _ _ => False
  | .share _ _ => False

/-- A state in which a word has stored: device memory, its lines' keys and marks, the quarantined lines, and the issuing group's scratchpad
may differ; a line that read correctly under the key still does. -/
structure Stored (s t : State) (ctx part key : Nat) (scratch : List (Nat × Byte)) (bad : List Nat) : Prop where
  rest : ∃ f : Group → List (Nat × Byte) × List Nat,
    t = { s with mem := t.mem, lineKeys := t.lineKeys, badLines := t.badLines, parts := t.parts,
                 groups := Map.modify s.groups ctx (fun g => { g with scratch := (f g).1, badScratch := (f g).2 }) } ∧
    ∀ g, Map.find s.groups ctx = some g → f g = (scratch, bad)
  parts : ∀ p, t.part p = { s.part p with quarantine := (t.part p).quarantine }
  clean : ∀ ga, s.clean part ga key = true → t.clean part ga key = true

/-- The value an atomic leaves of an `n`-bit location (R168). -/
def rmw (aop : Aop) (n old b : Nat) : Nat :=
  let x := BitVec.ofNat n old
  let y := BitVec.ofNat n b
  match aop with
  | .add => (x + y).toNat
  | .and => (x &&& y).toNat
  | .or => (x ||| y).toNat
  | .xor => (x ^^^ y).toNat
  | .minS => (if y.slt x then y else x).toNat
  | .maxS => (if x.slt y then y else x).toNat
  | .minU => min old b
  | .maxU => max old b
  | .xchg => b
  | .incw => if b ≤ old then 0 else old + 1
  | .decw => if old = 0 ∨ b < old then b else old - 1
  | .fadd => (FpFmt.f32.add .rne (FpFmt.f32.num old) (FpFmt.f32.num b)).bits
  | .fmin => FpFmt.f32.minMax false old b
  | .fmax => FpFmt.f32.minMax true old b

/-- The value a thread's atomic, compare-and-swap or memory-side command leaves (R169–R171, R176): `d` is its data operand. -/
def MemWord.leaves (m : MemWord) (d old : Nat) : Nat :=
  match m.spec.kind with
  | .cas => if old = d % 256 ^ m.spec.size then d / 256 ^ m.spec.size else old
  | .mscmd => (old + d) % 2 ^ 32
  | _ => rmw m.spec.aop (8 * m.spec.size) old d

/-! ## Sound states: what every step keeps -/

/-- Every wave a state holds: of resident groups, of saved ones, and of the snapshots a strike may restore. -/
def State.everyWave (s : State) : List Wave :=
  s.groups.flatMap (fun g => g.2.waves) ++ s.saved.flatMap (fun x => x.2.groups.flatMap (fun g => g.group.waves)) ++
    s.history.flatMap (fun x => x.groups.flatMap (fun g => g.2.waves))

/-- Memory words that have issued and are not complete, by number, wherever a state holds them. -/
def State.everyWord (s : State) : List (Nat × MemWord) :=
  s.cores.toList.flatMap (fun c => c.log ++ c.reqs) ++ s.saved.flatMap (fun x => x.2.groups.flatMap (fun g => g.log ++ g.reqs)) ++
    s.history.flatMap (fun x => x.core.log ++ x.core.reqs)

/-- A wave as R30, R32, R40, R41 and R297 say: its lays, at most seven borrowers of a base, EXEC and HOLD of living threads alone
wherever its slots are in use, and path state set aside only while it is halted. -/
structure Wave.Sound (w : Wave) : Prop where
  lays : w.LaysOk
  few : ∀ b, (w.reg b).borrowers.length ≤ 7
  masks : w.block = none ∨ w.handling = true → ∀ (k : Fin 2) (t : Lane),
    (Mask.has w.slots[k].exec t = true ∨ Mask.has w.slots[k].hold t = true) → Mask.has w.alive t = true
  aside : w.halt = .running ∨ w.halt = .coming ∨ (∃ n m, w.halt = .skid n m) → w.block = none

/-- A state whose waves are sound, and in which no memory word, and no lane that waits for a peer, has the next free number. -/
structure State.Sound (s : State) : Prop where
  waves : ∀ w ∈ s.everyWave, w.Sound
  words : ∀ e ∈ s.everyWord, e.1 < s.nextId
  lanes : ∀ o ∈ s.remote, o.2.cover = none → o.2.word < s.nextId

/-! ## Fetching, from R71 and R406 -/

/-- The eight bytes at a slot's pc: its page is mapped and permits a fetch, the bytes read correctly, and the core's instruction cache
holds no other word for the address. `s1` is the state with the page and the word cached. -/
structure Here.CodeAt (h : Here) (s s1 : State) (bs : List Byte) : Prop where
  eight : bs.length = 8
  mapped : ∃ (va : Nat) (s2 : State) (l : Leaf) (t : Target), h.pc.toNat % 2 ^ 57 = va ∧ -2 ^ 56 ≤ h.pc.toInt ∧ h.pc.toInt < 2 ^ 56 ∧
    s.translate h.g.core h.g.part h.g.asid va = (s2, .ok l) ∧ s2.granted h.g.part l .fetch h.w.tag.toNat va = some t ∧
    s2.sound h.g.part t 8 ∧ (∀ i < 8, bs[i]? = some (s2.byteAt t i)) ∧
    (∀ x, (s2.core h.g.core).cachedWord h.g.asid h.pc = some x → x = wordOfBytes bs) ∧
    s1 = s2.modCore h.g.core (fun c => c.cacheWord h.g.asid h.pc (wordOfBytes bs))

/-- The next move is the slot's word, whose turn it is: no starved pair word goes before it (R248), nothing an earlier word of the wave owes comes
first (R302), nor a cause its own fetch or read has still to raise (R360), nor the trap of a block whose check has failed (R240), and its bytes are
there. -/
structure Here.Fetches (h : Here) (s s0 s1 : State) (bs : List Byte) : Prop where
  next : ∃ rest, s.agenda = .word h.ref :: rest ∧ s0 = { s with agenda := rest, cur := some h.ref } ∧ { s with agenda := rest }.inTurn h = true
  slot : s0.slotAt h.ref = some h
  may : s0.mayIssue h = true
  pairs : s0.behindPair h = false
  owes : s0.dueGiveUp h = none
  raises : (h.w.slots[h.k]).toRaise = none
  block : h.w.badBlock = false
  within : s.beyond = none
  code : h.CodeAt s0 s1 bs

/-- A state after a step that came to `u`: blocks that the step has formed are written to the save area (R240); and where the core has a history, a
word whose effect left the core at once forgets it, after 40 clocks (R307). -/
def State.StepsTo (s : State) (core : Nat) (u t : State) : Prop :=
  step s = .next t ∧
    (t = u.formBlocks ∨ (∃ x ∈ s.history, x.coreNo = core) ∧ ∃ hist, t = { u.formBlocks.sealHistory core with history := hist })

/-! ## The page walk, from R348–R351 -/

/-- The eight-byte word at a partition physical address of the tables, which can be read. -/
def State.Holds (s : State) (part a x : Nat) : Prop := s.tableWord part a = .ok x

/-- An entry of an upper level that names a table aligned to its size (R349). -/
def TableEntry (align e next : Nat) : Prop :=
  e % 4 = 1 ∧ e / 4 % 2 ^ 10 = 0 ∧ e < 2 ^ 52 ∧ next = e / 2 ^ 12 * 2 ^ 12 ∧ next % align = 0

/-- A well-formed single leaf of a device page of a size (R350, R351, R354): valid, LF, BIG where the page has 2 MiB, no backing,
swizzle code and flags as they must be, its frame aligned and within the partition's space. -/
def DeviceLeaf (level size space e : Nat) : Prop :=
  e % 4 = 3 ∧ e / 2 ^ 5 % 4 = 0 ∧ e / 2 ^ 7 % 16 ≤ 9 ∧ e / 2 ^ 17 % 2 ^ 5 = 0 ∧ e / 2 ^ 23 % 2 ^ 5 = 0 ∧ e < 2 ^ 60 ∧
    (e / 2 ^ 4 % 2 = 1 → e / 2 ^ 2 % 4 = 3) ∧
    ((level = 1 ∧ size = 2 ^ 29 ∧ e / 2 ^ 22 % 2 = 0) ∨ (level = 0 ∧ size = 2 ^ 21 ∧ e / 2 ^ 22 % 2 = 1) ∨
      (level = 0 ∧ size = 2 ^ 16 ∧ e / 2 ^ 22 % 2 = 0)) ∧
    e / 2 ^ 28 * 2 ^ 16 % size = 0 ∧ e / 2 ^ 28 * 2 ^ 16 + size ≤ space

/-! ## Agreed operands, from R91 and R184 -/

/-- Threads of a mask that hold another value in the registers of an operand than the lowest. -/
def Wave.dissenting (w : Wave) (m : Mask) (rs : List Nat) : Mask := dissenters m (fun t => rs.map (fun r => w.read r t))

/-- The first of a word's operands on which the threads of a mask dissent. -/
def Wave.firstDissent (w : Wave) (m : Mask) (ops : List (List Nat)) : Option (List Nat) := ops.find? (fun rs => decide (w.dissenting m rs ≠ 0))

/-- What the lowest thread of a mask holds in a register, and in a pair. -/
def Wave.agreed (w : Wave) (m : Mask) (r : Reg) : Word := w.read r.toNat (Mask.lowest m)
/-- The pair. -/
def Wave.agreed64 (w : Wave) (m : Mask) (r : Reg) : Addr := w.read64 r.toNat (Mask.lowest m)

/-! ## Barriers, from R177–R183 -/

/-- A wave has no barrier of the level: it is a handler, it came from a bin, or the launch has none (R177, R181, R298). -/
def Here.NoBarrier (h : Here) (level : Level) : Prop :=
  h.w.halt = .handler ∨ (level ≠ .wave ∧ h.w.spawned = true) ∨ (level = .cluster ∧ h.g.image.clusterN = 0) ∨
    (level = .grid ∧ h.g.image.persistent = false)

/-- A barrier word: guard, level, index, whether its covered threads arrive, their fuse, and the operand they must agree on. -/
def barrierWord : Instr → Option (Guard × Level × BitVec 4 × Bool × Option Fuse × Option Reg)
  | .barSync g _ _ level i fuse => some (g, level, i, true, fuse, none)
  | .barArr g level i => some (g, level, i, true, none, none)
  | .barWait g level i => some (g, level, i, false, none, none)
  | .barExp g va i => some (g, .wave, i, false, none, some va)
  | .bartx g va i arr => some (g, .block, i, arr, none, some va)
  | _ => none

/-- Every live thread of a group's launched waves has arrived (R177, R178). -/
def Group.allIn (g : Group) (ctx : Nat) (b : Barrier) : Prop :=
  ∀ w ∈ g.waves, w.spawned = false → ∀ t, Mask.has w.alive t = true → Mask.has (b.of (waveKey ctx w.uid)) t = true

/-- No thread of a group's launched waves that has not arrived has an exit or a death that has still to leave the core (R307, R308). -/
def State.goneLeft (s : State) (g : Group) (ctx : Nat) (b : Barrier) : Prop :=
  ∀ w ∈ g.waves, w.spawned = false → ∀ p ∈ (s.core g.core).posts, ∀ m, p.2 = .gone ctx w.uid m →
    ∀ t, Mask.has m t = true → Mask.has (b.of (waveKey ctx w.uid)) t = true

/-- A phase is complete (R178): some thread has arrived by a word, every member has arrived, exited or died, at a cluster or a grid barrier by an
effect that has left its core, spawned threads that are gone for as many additions as expect them, and the transaction count is 0. -/
def State.Complete (s : State) (level : Level) (home : Nat) (b : Barrier) : Prop :=
  b.arrived ≠ [] ∧ b.tx = 0 ∧
  match level with
  | .wave => ∃ w, s.keyWave home = some w ∧
      let others := ((b.arrived.filter (fun p => p.1 != home)).map (fun p => Mask.count p.2)).sum
      (List.finRange 32).countP (fun t => Mask.has (b.of home) t || !Mask.has w.alive t) + others + min b.gone (b.exp - others) = 32 + b.exp
  | .block => ∃ g, Map.find s.groups home = some g ∧ g.allIn home b
  | .cluster | .grid => ∃ x, Map.find s.gangs home = some x ∧ ∀ c ∈ x.members, ∀ g, Map.find s.groups c = some g → g.allIn c b ∧ s.goneLeft g c b

/-- The barrier exists. -/
def State.hasBarrier (s : State) (level : Level) (home index : Nat) : Prop :=
  index < level.count ∧
  match level with
  | .wave => (s.keyWave home).isSome = true
  | .block => ∃ g, Map.find s.groups home = some g
  | .cluster | .grid => ∃ x, Map.find s.gangs home = some x

/-! ## Engine commands, from R184–R192 -/

/-- An engine command of the issuing slot: its guard, the operands its covered threads must agree on, in order, the check it fails
when they do, and what a copy command moves under which modifiers. -/
structure EngineCommand where
  guard : Guard
  operands : List (List Nat)
  refusal : Option Trap
  moves : Option (CopyKind × CopyMod)

/-- A range of scratch space that a command names lies outside the group's (R158). -/
def State.outOfScratch (s : State) (h : Here) (a : Word) (n : Nat) : Bool := (s.scratchAt h.ctx h.g a n).isNone

/-- The four registers of a coordinate quad, and the signed origins in them. -/
def quadOf (r : Reg) : List Nat := [r.toNat, r.toNat + 1, r.toNat + 2, r.toNat + 3]

/-- The checks of a tensor command, in the order of R291: shape and scratch range, then alignment, of which R185 asks nothing of `.tred`. -/
def State.boxRefusal (s : State) (h : Here) (m : Mask) (r : BitVec 512) (quad other : Reg) (reduces : Bool) : Option Trap :=
  let a := h.w.agreed m other
  if originBad r ((quadOf quad).map (fun r => (h.w.read r (Mask.lowest m)).toInt)) = true then some (Trap.named h.w .engineShape m quad.toNat 0)
  else if reduces = true ∧ shapeFmt r ≠ 4 then some (Trap.of .engineShape m)
  else if s.outOfScratch h a (boxBytes r) = true then some (Trap.named h.w .engineShape m other.toNat 0)
  else if reduces = false ∧ a.toNat % 16 ≠ 0 then some (Trap.named h.w .misaligned m other.toNat (a.setWidth 64))
  else none

/-- The copy commands and WVSEL as the manual gives them. -/
def engineCommand (s : State) (h : Here) : Instr → Option EngineCommand
  | .cpyLin g vd va vb c ss ds =>
    let m := h.cov g
    let at_ (scratch : Bool) (r : Reg) : Addr := if scratch then (h.w.agreed m r).setWidth 64 else h.w.agreed64 m r
    let regs (scratch : Bool) (r : Reg) : List Nat := if scratch then [r.toNat] else [r.toNat, r.toNat + 1]
    let len := (h.w.agreed m vb).toNat
    some ⟨g, [regs ds vd, regs ss va, [vb.toNat]],
      if ss = true ∧ s.outOfScratch h (h.w.agreed m va) len = true then some (Trap.named h.w .permission m va.toNat (at_ ss va))
      else if ds = true ∧ s.outOfScratch h (h.w.agreed m vd) len = true then some (Trap.named h.w .permission m vd.toNat (at_ ds vd))
      else none,
      some (.lin (at_ ds vd) (at_ ss va) ss ds len, c)⟩
  | .cpyTld g vd va q c =>
    let m := h.cov g
    let org := (quadOf va).map (fun r => (h.w.read r (Mask.lowest m)).toInt)
    some ⟨g, [quadOf va, [vd.toNat]], s.boxRefusal h m (vget h.g.shapes q.toNat 0) va vd false,
      some (.load (vget h.g.shapes q.toNat 0) org (h.w.agreed m vd), c)⟩
  | .cpyTst g vd va q c =>
    let m := h.cov g
    let org := (quadOf vd).map (fun r => (h.w.read r (Mask.lowest m)).toInt)
    some ⟨g, [quadOf vd, [va.toNat]], s.boxRefusal h m (vget h.g.shapes q.toNat 0) vd va false,
      some (.store (vget h.g.shapes q.toNat 0) org (h.w.agreed m va), c)⟩
  | .cpyTred g vd va q c =>
    let m := h.cov g
    let org := (quadOf vd).map (fun r => (h.w.read r (Mask.lowest m)).toInt)
    some ⟨g, [quadOf vd, [va.toNat]], s.boxRefusal h m (vget h.g.shapes q.toNat 0) vd va true,
      some (.reduce (vget h.g.shapes q.toNat 0) org (h.w.agreed m va), c)⟩
  | .cpymc g vd va vb vc op c =>
    let m := h.cov g
    let list := h.w.agreed64 m vb
    let src := h.w.agreed m va
    let len := (h.w.agreed m vd).toNat
    let count := (h.w.agreed m vc).toNat
    some ⟨g, [[vb.toNat, vb.toNat + 1], [va.toNat], [vd.toNat], [vc.toNat]],
      if ¬ (4 ≤ len ∧ len ≤ 2 ^ 24 ∧ len % 4 = 0) then some (Trap.named h.w .engineShape m vd.toNat 0)
      else if ¬ (1 ≤ count ∧ count ≤ 16) then some (Trap.named h.w .engineShape m vc.toNat 0)
      else if list.toNat % 8 ≠ 0 then some (Trap.named h.w .misaligned m vb.toNat list)
      else if s.outOfScratch h src len = true then some (Trap.named h.w .permission m va.toNat (src.setWidth 64))
      else none,
      some (.multi op list count [] src len, c)⟩
  | .wvsel g va =>
    let m := h.cov g
    some ⟨g, [[va.toNat]], if 7 < (h.w.agreed m va).toNat then some (Trap.named h.w .illegalOpcode m va.toNat 0) else none, none⟩
  | _ => none

/-! ## The ternary array, from R64–R66 and R194–R215 -/

/-- `acc_add` (R64): the exact product v × 2^e joins an element whose unit is 2^alpha. -/
structure Adds (alpha : Int) (el : Elem) (v e : Int) (el' : Elem) : Prop where
  stuck : el.overflow = true → el' = el
  value : el.overflow = false →
    let c : Int := ⌊(v : ℚ) * 2 ^ (e - alpha)⌋
    let sum := el.x.toInt + c
    el'.x.toInt = max (-2 ^ 95) (min sum (2 ^ 95 - 1)) ∧ (el'.overflow = true ↔ sum < -2 ^ 95 ∨ 2 ^ 95 - 1 < sum) ∧
      (el'.inexact = true ↔ el.inexact = true ∨ (c : ℚ) ≠ (v : ℚ) * 2 ^ (e - alpha))
  poison : el'.poison = el.poison

/-- A signed byte of eight registers of a row (R204). -/
def rowInt (row : List Byte × Word) (j : Nat) : Int := ((row.1[j]?.getD 0).toInt)

/-- A collective matrix word: its guard, its format register, whether it is MMAG, the operands that must agree, the check it fails when they
do, its instruction in matrix order, and whether its slot waits for it (R195–R214). MMAG, MMAS and TLD have checks that read memory. -/
structure MatrixWord where
  guard : Guard
  format : Reg
  grouped : Bool
  operands : List (List Nat)

/-- The collective matrix words. -/
def matrixWord : Instr → Option MatrixWord
  | .tld g vd va vb vc _ _ _ => some ⟨g, vc, false, [[va.toNat, va.toNat + 1], [vb.toNat], [vd.toNat, vd.toNat + 1]]⟩
  | .mma g _ _ vb vc _ => some ⟨g, vc, false, [[vb.toNat]]⟩
  | .mmas g va vb vc _ _ _ => some ⟨g, vc, false, [[va.toNat], [vb.toNat]]⟩
  | .mmag g vd va vb vc _ _ _ => some ⟨g, vc, true, [[vd.toNat], [va.toNat], [vb.toNat]]⟩
  | .aclr g vc _ => some ⟨g, vc, false, []⟩
  | .adrain g va _ vc _ _ => some ⟨g, vc, false, [quadOf va]⟩
  | .ard g _ va vc _ _ => some ⟨g, vc, false, [[va.toNat]]⟩
  | .achk g _ vc _ => some ⟨g, vc, false, []⟩
  | _ => none

/-- The wave is not converged (R195 step 1). -/
def Here.Scattered (h : Here) (g : Guard) : Prop :=
  h.w.exited ≠ 0 ∨ h.w.slots[otherSlot h.k].live = true ∨ h.w.slots[h.k].hold ≠ 0 ∨ h.w.exec h.k ≠ ~~~h.w.dead ∨
    (h.cov g ≠ 0 ∧ h.cov g ≠ h.w.exec h.k)

/-- A format word is illegal (R194). -/
def IllegalFormat (fw : Word) (grouped : Bool) : Prop :=
  2 ^ 17 ≤ fw.toNat ∨ 6 ≤ fw.toNat / 8 % 8 ∨ 4 ≤ fw.toNat % 8 ∨
    (fw.toNat / 2 ^ 16 % 2 = 1 ∧ (fw.toNat % 8 ≠ 0 ∨ 3 ≤ fw.toNat / 8 % 8 ∨ grouped = true))

/-- The stationary format of a format word. -/
def stationary (fw : Word) : Nat := fw.toNat / 8 % 8

/-- The own check of a collective matrix word whose agreed operands need no memory, and its instruction in matrix order with whether the
slot waits until it has taken effect. -/
def matrixEffect (h : Here) (fw : Word) : Instr → Option (Option Trap × MatOp × Bool)
  | .mma _ vd va vb _ tile =>
    let k0 := (h.w.agreed (h.w.exec h.k) vb).toNat
    some (if k0 % 32 ≠ 0 ∨ (if stationary fw = 1 then 480 else 224) < k0 then some (Trap.named h.w .engineShape (h.w.exec h.k) vb.toNat 0) else none,
      .mma fw tile.toNat k0 ((List.finRange 32).map (fun m =>
        if Mask.has h.w.dead m then (List.replicate 32 0, 0)
        else ((List.range 32).map (fun j => (h.w.read (va.toNat + j / 4) m).extractLsb' (8 * (j % 4)) 8), h.w.read vd.toNat m))) h.w.dead, false)
  | .aclr _ _ tile => some (none, .aclr fw tile.toNat, false)
  | .adrain _ va q _ add tile =>
    let r := vget h.g.shapes q.toNat 0
    some (if shapeFmt r ∉ [0, 1, 2, 4, 5, 6] ∨ shapeDims r = 1 ∨ 32 < shapeBox r 1 ∨ (add = true ∧ shapeFmt r ≠ 4) then
        some (Trap.of .engineShape (h.w.exec h.k)) else none,
      .adrain fw tile.toNat ((quadOf va).map (fun i => (h.w.read i (Mask.lowest (h.w.exec h.k))).toInt)) r add, false)
  | .ard _ vd va _ raw tile =>
    let n := (h.w.agreed (h.w.exec h.k) va).toNat
    some (if (raw = true ∧ 255 < n) ∨ (raw = false ∧ (248 < n ∨ n % 8 ≠ 0)) then
        some (Trap.named h.w .engineShape (h.w.exec h.k) va.toNat 0) else none, .ard fw tile.toNat raw n vd, true)
  | .achk _ vd _ tile => some (none, .achk fw tile.toNat vd, true)
  | _ => none

/-- An instruction has joined the end of a core's matrix order, in the wave's open batch (R197, R198). -/
def State.joined (s : State) (h : Here) (op : MatOp) (wait : Option Wait) : State :=
  let e : MatEntry := { id := s.nextId, ctx := h.ctx, wave := h.wv, slot := h.k, op := op, batch := h.w.batch + 1, phase := .queued, occ := 0,
                        token := none, va := 0, tag := h.w.tag, got := [], ahead := none }
  let w := match wait with
    | none => h.w.advance h.k
    | some x => h.w.stallAt h.k x
  ({ s with nextId := s.nextId + 1 }.putWave h w).modCore h.g.core (fun c => { c with queue := c.queue ++ [e] })

/-! ## More of barriers, exceptions and the system group -/

/-- A fault that a BAR.sync or BAR.wait of a barrier delivers (R183, R198, R299): of a retired batch, or of a copy that names the block barrier. -/
def Wave.owesAt (w : Wave) (level : Level) (index : BitVec 4) (f : AsyncFault) : Prop :=
  f ∈ w.faults ∧
  match f.cover with
  | .batch n => (w.retired - n).toNat < 2 ^ 15
  | .channel _ => level = .block ∧ f.bar = some index
  | .coll _ => False
  | .launch _ => False

/-- A fault is the first of those that satisfy a condition, in issue order (R299). -/
def Wave.owesFirst (w : Wave) (p : AsyncFault → Prop) (f : AsyncFault) : Prop := p f ∧ f ∈ w.faults ∧ ∀ x ∈ w.faults, p x → x ≠ f → f.rank < x.rank

/-- The state after a wait has delivered a fault (R295, R299): its trap is taken at the wait word, the mask EXEC, and the fault is gone from the
wave, unless that has stopped as a sibling instead. -/
def State.delivers (s : State) (h : Here) (f : AsyncFault) : State :=
  (s.takeTrap h { Trap.of f.cause (h.w.exec h.k) with addr := f.addr }).modWave h.ctx h.wv (fun w =>
    if w.halt.isTrapped = true ∨ w.halt = .handler then
      { w with
        faults := w.faults.filter (fun x => x.cover != f.cover || x.rank != f.rank)
        block := w.block.map (fun b => { b with fault := some f }) }
    else w)

/-- The state after a wait has delivered the overflow of a block barrier's count (R183, R295, R299): its trap is taken at the wait word, the mask
EXEC, and the mark is gone from the barrier, unless the wave has stopped as a sibling instead. -/
def State.deliversOverflow (s : State) (h : Here) (index : Nat) : State :=
  let t := s.takeTrap h (Trap.of .barrierMisuse (h.w.exec h.k))
  if (t.waveOf h.ctx h.wv).any (fun w => w.halt.isTrapped || decide (w.halt = .handler)) then
    (t.modBar .block h.ctx index (fun b => { b with overflow := false })).modWave h.ctx h.wv (fun w =>
      { w with block := w.block.map (fun b => { b with tx := some index }) })
  else t

/-- The barrier a covered thread names. -/
def Here.barOf (h : Here) (level : Level) (t : Lane) : Nat := barHome h.ctx h.g h.w level t

/-- A covered thread has arrived already, or the barrier's phase has another fuse (R181); arrivals still to leave their cores count. -/
def State.misused (s : State) (h : Here) (level : Level) (index : Nat) (cov : Mask) (fuse : Option Fuse) : Prop :=
  ∃ t, Mask.has cov t = true ∧
    (Mask.has ((s.barSeen level (h.barOf level t) index).of (waveKey h.ctx h.w.uid)) t = true ∨
      ∃ k, (s.barSeen level (h.barOf level t) index).kind = some k ∧ k ≠ fuse)

/-- Nothing a waiting barrier word delivers: no fault, no overflow of the block barrier's count (R183, R299). -/
def State.clearAt (s : State) (h : Here) (level : Level) (index : BitVec 4) : Prop :=
  (∀ f, ¬ h.w.owesAt level index f) ∧ (level = .block → (s.bar .block h.ctx index.toNat).overflow = false)

/-- BAR.sync and BAR.wait. -/
def WaitsAt : Instr → Prop
  | .barSync _ _ _ _ _ _ => True
  | .barWait _ _ _ => True
  | _ => False

/-- What a thread contributes to a fuse (R180): its FP operand after DAZ. -/
def fusePart (w : Wave) (f : Fuse) (r : Reg) (t : Lane) : Word :=
  if f.op = .fadd ∨ f.op = .fmin ∨ f.op = .fmax then daz w.fpctl (w.read r.toNat t) else w.read r.toNat t

/-- Where an arriving word leaves its slot, and what its threads contribute. -/
def arrives (h : Here) (level : Level) (index : Nat) (home phase : Nat) : Instr → Wave × List Word
  | .barSync g vd va _ _ fuse =>
    (h.w.stallAt h.k (.barrier level index [(home, phase)] (fuse.map (fun _ => (vd, h.cov g)))),
      match fuse with
      | none => []
      | some f => (Mask.lanes (h.cov g)).map (fusePart h.w f va))
  | _ => (h.w.advance h.k, [])

/-! ## Traps, from R240, R291–R300 -/

/-- A wave as a trap leaves it in a core clock (R240, R292–R296). -/
def Wave.trappedBy (w : Wave) (k : Fin 2) (t : Trap) (stamp clock : Nat) : Wave :=
  { w with
    frame := ⟨BitVec.ofNat 32 t.cause.code, w.slots[k].pc, w.slots[k].exec, BitVec.ofNat 32 t.thread.val, t.telem, t.addr, 0, 0⟩
    faultMask := t.mask
    block := some ⟨w.slots, w.stack, w.spilled, k, w.slots[k].pc, none, stamp, true, none, none, none⟩
    halt := .trapped t.mask clock }

/-- A wave in its handler's first word, its trapping slot as it was (R297, R305). -/
def Wave.inHandler (w : Wave) (p : PathSlot) (pc : Addr) (m : Mask) : Wave :=
  { w with
    slots := #v[{ p with live := true, pc := pc, exec := m &&& w.alive, hold := 0, pair := none, wait := none, starved := 0,
                                  yielded := false, rest := 0, spawned := 0, got := [] }, PathSlot.empty]
    stack := []
    spilled := 0
    halt := .handler }

/-- Another wave of the group still has to stop for a trap of wave `wv` (R293). -/
def Group.mustStop (g : Group) (wv : Nat) : Prop :=
  ∃ i w, i ≠ wv ∧ g.waves[i]? = some w ∧ ((w.ended = false ∧ w.halt = .running) ∨ w.halt = .coming ∨ ∃ n m, w.halt = .skid n m)

/-- The other waves of a group after a halt has been sent to them. -/
def Group.halted (g : Group) (wv : Nat) (w : Wave) : Group :=
  { g with waves := g.waves.zipIdx.map (fun x =>
      if x.2 = wv then w else if x.1.ended = false ∧ x.1.halt = .running then { x.1 with halt := .coming } else x.1) }

/-- A wave stopped as a sibling, its frame that of slot `k` at an address (R240, R294, R295). -/
def Wave.stoppedAt (w : Wave) (k : Fin 2) (pc : Addr) (words clocks : Nat) : Wave :=
  { w with
    frame := ⟨BitVec.ofNat 32 Cause.siblingHalt.code, pc, w.slots[k].exec, 0, 0x80000000, 0, BitVec.ofNat 32 words, BitVec.ofNat 32 clocks⟩
    block := some ⟨w.slots, w.stack, w.spilled, k, w.slots[k].pc, none, 0, true, none, none, none⟩
    halt := .stopped }

/-- A wave stopped as a sibling between words: its lower-numbered live slot, at the next word it is to issue (R294). -/
def Wave.stoppedNext (w : Wave) (words clocks : Nat) : Wave :=
  let k : Fin 2 := if w.slots[(0 : Fin 2)].live then 0 else 1
  w.stoppedAt k (if w.slots[k].wait.any Wait.issued then w.slots[k].pc + 8 else w.slots[k].pc) words clocks

/-- No thread of a wave's block has gone since, and its live slots have threads. -/
def Wave.whole (w : Wave) (b : Block) : Prop :=
  ∀ k : Fin 2, b.slots[k].exec &&& w.alive = b.slots[k].exec ∧ b.slots[k].hold &&& w.alive = b.slots[k].hold ∧
    (b.slots[k].live = true → b.slots[k].exec ≠ 0)

/-- A wave with its block's path state back, its trapping slot as given (R240, R300). -/
def Wave.backAt (w : Wave) (b : Block) (p : PathSlot) : Wave :=
  { w with slots := b.slots.set b.trapSlot p, stack := b.stack, spilled := b.spilled, block := none, halt := .running }

/-- The blocks of a context's waves pass their check codes (R240). -/
def State.blocksPass (s : State) (ctx : Nat) : Prop :=
  ∀ x ∈ s.groups, x.1 = ctx → ∀ (i : Nat) (v : Wave) (b : Block), x.2.waves[i]? = some v → v.block = some b → (s.checkBlock x.2 i b).intact = true

/-- The trapping slot of a block as RTT sends it to an address, with its wait or without (R300). -/
def Block.slotAt (b : Block) (a : Addr) (wait : Option Wait) : PathSlot :=
  let p := b.slots[b.trapSlot]
  { p with pc := a, wait := wait, starved := 0, yielded := false, spawned := if a = p.pc then p.spawned else 0, got := [] }

/-- The waves of a group that a return from a trap lets go on (R300): wave `wv` as given, stopped siblings from their blocks, those a halt
had not yet stopped as they are. -/
def Group.resumed (g : Group) (wv : Nat) (w : Wave) : Group :=
  { g with waves := g.waves.zipIdx.map (fun x =>
      if x.2 = wv then w
      else
        match x.1.halt, x.1.block with
        | .stopped, some b => { x.1 with slots := b.slots, stack := b.stack, spilled := b.spilled, block := none, halt := .running }
        | .stopped, none => { x.1 with halt := .running }
        | .coming, _ => { x.1 with halt := .running }
        | .skid _ _, _ => { x.1 with halt := .running }
        | _, _ => x.1) }

/-! ## Special registers, from R23–R27 and R221–R223 -/

/-- PATHS as a slot reads it (R25): entries on chip, SPILL, the slot, whether the other lives, DEADSRC. -/
def pathsWord (w : Wave) (k : Fin 2) : Word :=
  BitVec.ofNat 32 ((w.stack.length - w.spilled) + 64 * (decide (w.spilled ≠ 0)).toNat + 256 * k.val +
    512 * (w.slots[otherSlot k].live).toNat + 65536 * w.deadsrc.toNat)

/-- The special registers by number, and what a thread reads (R24–R27, R221, R222). -/
def specials (s : State) (h : Here) (t : Lane) : List (Nat × Word) :=
  let c := s.core h.g.core
  let two (n : Nat) (x : BitVec 64) : List (Nat × Word) := [(n, x.extractLsb' 0 32), (n + 1, x.extractLsb' 32 32)]
  let num (x : Nat) : Word := BitVec.ofNat 32 x
  [(0x00, num ((if h.w.z5 then 16 else 32) * h.wv + t.val)), (0x01, num h.wv)] ++
    (List.range 3).map (fun i => (2 + i, h.g.grp.toList[i]?.getD 0)) ++ (List.range 3).map (fun i => (5 + i, h.g.ngrp.toList[i]?.getD 0)) ++
    [(0x08, num h.g.gsize), (0x09, num h.g.core), (0x0A, num (clusterOf h.g.core)), (0x0B, num h.w.role.val),
      (0x0C, h.w.slots[h.k].exec), (0x0D, pathsWord h.w h.k)] ++
    two 0x0E c.clock ++ [(0x10, h.g.lscale), (0x11, h.g.ovfl), (0x12, h.w.fpctl)] ++ two 0x13 h.g.args ++ [(0x15, h.w.dead), (0x20, h.w.frame.cause)] ++
    two 0x21 h.w.frame.pc ++ [(0x23, h.w.frame.mask), (0x24, h.w.frame.thread), (0x25, h.w.frame.telem)] ++ two 0x26 h.w.frame.addr ++
    [(0x28, h.w.frame.skid), (0x29, h.w.frame.count), (0x100, num (h.g.priv.toNat + 2 * h.g.test.toNat)), (0x101, num h.ctx), (0x102, num h.g.part),
      (0x103, num (s.part h.g.part).primary.toNat), (0x104, num h.g.asid.toNat), (0x105, num (s.gen h.g.asid.toNat).toNat),
      (0x106, num (c.orgR.toNat + 256 * c.orgC.toNat + 65536 * c.spares)), (0x107, num c.ratio.toNat)] ++
    two 0x108 h.g.savea ++
    [(0x10A, s.epoch), (0x10B, num (h.w.batch.toNat + 65536 * h.w.retired.toNat)), (0x10C, num h.g.lscnt.toNat)]

/-- What a SYSWR of a value leaves of the group and its wave, its pc apart (R18, R25–R27, R221); an OVFL bit that is set in the same core clock
stays (R100). -/
def written (g : Group) (wv : Nat) (w : Wave) (k : Fin 2) (v : Word) : List (Nat × Group) :=
  [(0x0C, g.setWave wv { w with slots := w.slots.set k { w.slots[k] with exec := w.slots[k].exec &&& v } }),
    (0x0D, g.setWave wv { w with deadsrc := w.deadsrc && !v.getLsbD 16 }),
    (0x10, { g.setWave wv w with lscale := v }),
    (0x11, { g.setWave wv w with ovfl := g.ovfl &&& (~~~(v &&& 0xF) ||| g.ovflNow) }),
    (0x12, g.setWave wv { w with fpctl := v &&& 3 }),
    (0x21, g.setWave wv { w with frame := { w.frame with pc := w.frame.pc.extractLsb' 32 32 ++ v } }),
    (0x22, g.setWave wv { w with frame := { w.frame with pc := v ++ w.frame.pc.extractLsb' 0 32 } }),
    (0x10C, { g.setWave wv w with lscnt := v.extractLsb' 0 16 })]

/-- Words that only privileged code may run (R193), and AFLIP outside test mode (R215). -/
def needsPrivilege (h : Here) : Instr → Prop
  | .halt _ => h.g.priv = false
  | .icinv _ _ _ => h.g.priv = false
  | .genbump _ _ _ => h.g.priv = false
  | .tlbinv _ _ _ _ => h.g.priv = false
  | .stest _ _ _ => h.g.priv = false
  | .sysrd _ _ n => h.g.priv = false ∧ 0x100 ≤ n.toNat
  | .syswr _ _ n => h.g.priv = false ∧ 0x100 ≤ n.toNat
  | .aflip _ _ _ => h.g.test = false
  | _ => False

/-- A loss scale's value as LSUPD takes it (R230): 1 unless it is a positive finite normal number. -/
def scaleOf (x : Word) : ℚ :=
  let v := (FpFmt.f32.num x.toNat).val
  if (FpFmt.f32.num x.toNat).isFin = true ∧ (2 : ℚ) ^ (-126 : Int) ≤ v then v else 1

/-- A command of a wave as a core's copy engine holds it before its first chunk, and the state in which it has been issued (R184, R187, R252). -/
def State.queuedCopy (s : State) (h : Here) (kind : CopyKind) (c : CopyMod) : State :=
  let cmd : CopyCmd := { id := s.nextId, ctx := h.ctx, wave := h.wv, ch := c.ch.toNat, bar := c.bar, kind := kind, done := 0,
                         issued := (s.core h.g.core).clock.toNat, token := none, va := 0, tag := h.w.tag, got := [] }
  let w := h.w.advance h.k
  let w := match kind.scratchDst with
    | none => w
    | some d => { w with writePtr := vmod w.writePtr c.ch.toNat (fun _ => d) }
  let s1 := ({ s with nextId := s.nextId + 1 }.putWave h w).modCore h.g.core (fun k => { k with copies := k.copies ++ [cmd] })
  s1.modCluster (clusterOf h.g.core) (fun k => { k with waiting := k.waiting ++ [⟨.copy, h.g.core, s.nextId, 64, k.clock, 0⟩] })

end Sys2Proof.Machine
end

