-- ==== Sys2Proof/Certificates/Slice0/Obligations.lean ====
section
/-! DEFINITION. The statements for the provers, each from the rules its docstring names. -/

open Sys2Proof Sys2Proof.Machine

/-! ## Register and predicate results -/

/-- MOV, MOVI and the integer and logic words but IADDC (R103–R116, R118, R119): the word retires its destinations alone, raises no event,
and a covered thread reads in them the exact integer result of what it read, where none of its sources' entries is VOID. -/
def Obligations.IntegerWordsResult : Prop :=
  ∀ (s : State) (h : Here) (i : Instr) (g : Guard) (f : Lane → List Word → List Word),
    Issues s h → i.wf = true → intResult h.w i = some (g, f) →
    ∃ (t : State) (w' : Wave), exec i s = .next t ∧ Retires s t h (fun _ => h.cov g) (usesOf i).2 false 0 w' ∧
      ∀ (d n : Nat), (usesOf i).2[n]? = some d → ∀ q, Mask.has (h.cov g) q = true → h.w.Sees (usesOf i).1 q →
        w'.read d q = (f q ((usesOf i).1.map (fun r => h.w.read r q)))[n]?.getD 0

/-- IADDC (R106): the sum of the operands and, with CI, the predicate; the predicate takes the carry of each covered thread. -/
def Obligations.AddWithCarry : Prop :=
  ∀ (s : State) (h : Here) (g : Guard) (vd va vb : Reg) (pc : PredNo) (ci : Bool),
    Issues s h →
    ∃ (t : State) (w' w'' : Wave), exec (.iaddc g vd va vb pc ci) s = .next t ∧ t = s.putWave h (w''.advance h.k) ∧
      w'' = { w' with preds := w''.preds, badPreds := w''.badPreds } ∧ h.w.SameBut w' ∧ w'.deadsrc = h.w.deadsrc ∧
      (∀ r ≠ vd.toNat, ∀ q, Mask.has h.w.alive q = true → w'.read r q = h.w.read r q) ∧
      (∀ q, Mask.has h.w.alive q = true → Mask.has (h.cov g) q = false → w'.read vd.toNat q = h.w.read vd.toNat q) ∧
      (∀ q, Mask.has (h.cov g) q = true → (ci = false → h.w.Sees [va.toNat, vb.toNat] q) →
        w'.read vd.toNat q =
          h.w.read va.toNat q + h.w.read vb.toNat q + (if ci = true ∧ h.w.pred pc q = true then 1 else 0)) ∧
      (∀ p q, w''.pred p q =
        if p ≠ 7 ∧ p = pc ∧ Mask.has (h.cov g) q = true then
          decide (2 ^ 32 ≤ (h.w.read va.toNat q).toNat + (h.w.read vb.toNat q).toNat + (if ci = true ∧ h.w.pred pc q = true then 1 else 0))
        else h.w.pred p q)

/-- The floating-point words with register results (R120, R121, R123–R126): the word retires its destinations alone, OVFL takes the events
of covered threads, and each of these reads the operation's result of what it read, where none of its sources' entries is VOID.
It rests on a choice of the model's: log entry 71. -/
def Obligations.FloatWordsResult : Prop :=
  ∀ (s : State) (h : Here) (i : Instr) (g : Guard) (f : List Word → Outs),
    Issues s h → i.wf = true → fpResult h.w.fpctl i = some (g, f) →
    ∃ (t : State) (w' : Wave), exec i s = .next t ∧
      Retires s t h (fun _ => h.cov g) (usesOf i).2 false (raised (h.cov g) (fun q => f ((usesOf i).1.map (fun r => h.w.read r q)))) w' ∧
      ∀ (d n : Nat), (usesOf i).2[n]? = some d → ∀ q, Mask.has (h.cov g) q = true → h.w.Sees (usesOf i).1 q →
        w'.read d q = (f ((usesOf i).1.map (fun r => h.w.read r q))).vals[n]?.getD 0

/-- The lay of a result (R38): a word that covers fully and has no predicate operand keeps the entries its sources share; any other gives
its destinations the identity lay, and then a VOID source counts as 0.
It rests on a choice of the model's: log entry 48. -/
def Obligations.ResultLays : Prop :=
  ∀ (s : State) (h : Here) (i : Instr) (g : Guard),
    Issues s h → i.wf = true → ((∃ f, intResult h.w i = some (g, f)) ∨ ∃ f, fpResult h.w.fpctl i = some (g, f)) → h.cov g ≠ 0 →
    ∃ (t : State) (w' : Wave), exec i s = .next t ∧ t.waveOf h.ctx h.wv = some (w'.advance h.k) ∧
      ∀ d ∈ (usesOf i).2, (w'.reg d).base = none ∧
        (∀ lay, (∀ g vd va vb pc, i ≠ .sel g vd va vb pc) → h.w.SharesLay (h.cov g) (usesOf i).2 (usesOf i).1 lay → (w'.reg d).loc = lay) ∧
        (((∃ g vd va vb pc, i = .sel g vd va vb pc) ∨ ¬ ∃ lay, h.w.SharesLay (h.cov g) (usesOf i).2 (usesOf i).1 lay) →
          (w'.reg d).loc = h.w.ident ∧
          ∀ n : Nat, (usesOf i).2[n]? = some d → ∀ q, Mask.has (h.cov g) q = true →
            w'.read d q = (wordOuts h.w i q ((usesOf i).1.map (fun r => h.w.read r q))).vals[n]?.getD 0)

/-- A pair word (R84, R128): each slot gives its destination what the full word of its opcode gives of the values before the pair word.
It rests on a choice of the model's: log entry 70. -/
def Obligations.PairWordsResult : Prop :=
  ∀ (s : State) (h : Here) (op : PairOp) (x : PairArgs) (y : PairSlot),
    Issues s h → pairWf op x y = true →
    ∃ (t : State) (w' : Wave), exec (pairInstr op x y) s = .next t ∧
      Retires s t h (fun d => if d = x.vd.toNat then h.cov x.g else h.cov y.args.g) [x.vd.toNat, y.args.vd.toNat] false
        (raised (h.cov x.g) (slotOuts h.w op x) ||| raised (h.cov y.args.g) (slotOuts h.w y.op y.args)) w' ∧
      (∀ q, Mask.has (h.cov x.g) q = true → h.w.Sees (slotReads op x) q →
        w'.read x.vd.toNat q = (slotOuts h.w op x q).vals[0]?.getD 0) ∧
      (∀ q, Mask.has (h.cov y.args.g) q = true → h.w.Sees (slotReads y.op y.args) q →
        w'.read y.args.vd.toNat q = (slotOuts h.w y.op y.args q).vals[0]?.getD 0)

/-- The words whose register result is formed from several threads, from the path or from a shape record (R127, R138, R140–R144, R153,
R154, R216): every covered thread gets its value with the identity lay, and nothing else changes but events and PATHS.DEADSRC.
It rests on a choice of the model's: log entry 72. -/
def Obligations.LaneWordsResult : Prop :=
  ∀ (s : State) (h : Here) (i : Instr) (g : Guard) (vd : Reg) (dead : Bool) (f : Lane → Outs),
    Issues s h → i.wf = true → laneResult h i = some (g, vd, dead, f) →
    ∃ (t : State) (w' : Wave), exec i s = .next t ∧ Retires s t h (fun _ => h.cov g) [vd.toNat] dead (raised (h.cov g) f) w' ∧
      (h.cov g ≠ 0 → w'.isIdentity vd.toNat = true) ∧
      ∀ q, Mask.has (h.cov g) q = true → w'.read vd.toNat q = (f q).vals[0]?.getD 0

/-- The words whose result is predicates (R117, R122, R140, R144, R154). -/
def Obligations.PredicateWordsResult : Prop :=
  ∀ (s : State) (h : Here) (i : Instr) (g : Guard) (written : PredNo → Bool) (value : PredNo → Lane → Bool),
    s.here = some h → predResult h i = some (g, written, value) →
    ∃ (t : State) (w' : Wave), exec i s = .next t ∧ SetsPreds s t h (h.cov g) written value w'

/-- Rounding (R47): the result of a nonzero real, in each format and mode, is the real rounded, with its sign; and it counts as past the largest
finite value exactly where it became infinite, or where its magnitude reaches the first value that the format's exponents have no place for. -/
def Obligations.RoundingIsExact : Prop :=
  ∀ (F : FpFmt) (mode : Rnd) (neg : Bool) (m : Nat) (e : Int), F = .f32 ∨ F = .bf16 ∨ F = .f16 → 0 < m →
    ∃ k, (F.round mode neg m e).1 = F.withSign neg k ∧ ((F.round mode neg m e).2 = true ↔ k = F.inf ∨ F.magVal F.inf ≤ (m : ℚ) * 2 ^ e) ∧
      F.Rounded mode neg ((m : ℚ) * 2 ^ e) k

/-- FADD, FSUB, FMUL and FFMA (R46, R48, R49, R120): of finite values the exact value is rounded once; an exact zero takes the sign of R49:
of two zeros of one sign, subtraction taken as the sum with the sign changed, that sign, of opposite signs −0 in RDN and +0 otherwise, and of a
product the exclusive OR; every NaN the first three write is 0x7FC00000, and FINV says that one was written of operands that are no NaN.
It rests on a choice of the model's: log entry 71. -/
def Obligations.FloatArithmeticRoundsOnce : Prop :=
  (∀ (rnd : Rnd) (c a b d : Word), (num32 c a).isFin = true → (num32 c b).isFin = true → (num32 c d).isFin = true →
     let A := (num32 c a).val
     let B := (num32 c b).val
     let D := (num32 c d).val
     let Is (o : Outs) (x : ℚ) : Prop :=
       ∃ k, o.vals = [ftz c (BitVec.ofNat 32 (FpFmt.f32.withSign (decide (x < 0)) k))] ∧ o.inv = false ∧
         (o.ovf = true ↔ k = FpFmt.f32.inf) ∧ FpFmt.f32.Rounded rnd (decide (x < 0)) |x| k
     (A + B ≠ 0 → Is (fadd32 rnd c a b) (A + B)) ∧ (A - B ≠ 0 → Is (fsub32 rnd c a b) (A - B)) ∧
       (A * B ≠ 0 → Is (fmul32 rnd c a b) (A * B)) ∧ (A * B + D ≠ 0 → Is (ffma32 rnd c a b d) (A * B + D)) ∧
       (let sign (x : Word) := x &&& 0x80000000
        let zero (x y : Word) : Outs := ⟨[if sign x = sign y then sign x else if rnd = .rdn then 0x80000000 else 0], false, false⟩
        (A + B = 0 → fadd32 rnd c a b = zero a b) ∧ (A - B = 0 → fsub32 rnd c a b = zero a (b ^^^ 0x80000000)) ∧
          (A * B + D = 0 → ffma32 rnd c a b d = zero (a ^^^ b) d)) ∧
       (A * B = 0 → fmul32 rnd c a b = ⟨[(a ^^^ b) &&& 0x80000000], false, false⟩)) ∧
  ∀ (rnd : Rnd) (c a b : Word) (o : Outs),
    o = fadd32 rnd c a b ∨ o = fsub32 rnd c a b ∨ o = fmul32 rnd c a b →
    ∃ x, o.vals = [x] ∧
      (FpFmt.f32.isNan x.toNat = true → x = 0x7FC00000) ∧
      (o.inv = true ↔ FpFmt.f32.isNan x.toNat = true ∧ FpFmt.f32.isNan a.toNat = false ∧ FpFmt.f32.isNan b.toNat = false) ∧
      (FpFmt.f32.isNan a.toNat = true ∨ FpFmt.f32.isNan b.toNat = true → x = 0x7FC00000)

/-! ## Lays -/

/-- The map edits (R31, R33, R131, R134–R136, R411): a covered live thread reads what its source thread read of the source register, and
0 where the source is none, exited or dead; a dead source sets PATHS.DEADSRC. With full cover the edit writes the lay alone: the
destination takes the source's base and entries, and its own elements stay. With partial cover the destination takes the identity lay.
It rests on a choice of the model's: log entry 69. -/
def Obligations.MapEditsMoveLays : Prop :=
  ∀ (s : State) (h : Here) (i : Instr) (g : Guard) (vd vs : Reg) (src : Lane → Option Lane),
    Issues s h → i.wf = true → editFrom h i = some (g, vd, vs, src) →
    ∃ (t : State) (w' : Wave), exec i s = .next t ∧
      Retires s t h (fun _ => h.cov g) [vd.toNat]
        (decide (∃ q p, Mask.has (h.cov g) q = true ∧ src q = some p ∧ Mask.has h.w.dead p = true)) 0 w' ∧
      (∀ q, Mask.has (h.cov g) q = true →
        w'.read vd.toNat q = match src q with
          | none => 0
          | some p => if Mask.has h.w.alive p then h.w.read vs.toNat p else 0) ∧
      (h.cov g ≠ 0 →
        ((∀ q, Mask.has h.w.alive q = true → Mask.has (h.cov g) q = true) →
          w'.baseOf vd.toNat = h.w.baseOf vs.toNat ∧ (w'.reg vd.toNat).elems = (h.w.reg vd.toNat).elems ∧
          ∀ q : Lane, Mask.has h.w.alive q = true →
            (w'.reg vd.toNat).loc[q] = (src q).bind (fun p => if Mask.has h.w.alive p then (h.w.reg vs.toNat).loc[p] else none)) ∧
        ((∃ q, Mask.has h.w.alive q = true ∧ Mask.has (h.cov g) q = false) → w'.isIdentity vd.toNat = true))

/-- RELAY (R137): the register takes the identity lay whatever EXEC and the guard hold, no value a live thread reads changes, and no tag.
LAYWR (R139): a covered thread's entry becomes VOID for a value with bit 31, and the element the value names for one up to 31; any
other value traps, naming va, and leaves the lay. The base, the elements and every other register stay. -/
def Obligations.LayWordsSetLays : Prop :=
  (∀ (s : State) (h : Here) (g : Guard) (vd : Reg),
     Issues s h →
     ∃ (t : State) (w' : Wave), exec (.relay g vd) s = .next t ∧ Retires s t h (fun _ => 0) [vd.toNat] false 0 w' ∧
       w'.isIdentity vd.toNat = true ∧ ∀ r, (w'.reg r).tag = (h.w.reg r).tag) ∧
  ∀ (s : State) (h : Here) (g : Guard) (vd va : Reg),
    s.here = some h →
    let x (q : Lane) := h.w.read va.toNat q
    let no := wordBits (fun n => Mask.has (h.cov g) (laneOf n) && decide (32 ≤ (x (laneOf n)).toNat ∧ (x (laneOf n)).toNat < 2 ^ 31))
    (no ≠ 0 → exec (.laywr g vd va) s = .next (s.takeTrap h
      ⟨.illegalOpcode, no, Mask.lowest no, h.w.telem va.toNat (Mask.lowest no), 0⟩)) ∧
    (no = 0 → ∃ (t : State) (w' : Wave), exec (.laywr g vd va) s = .next t ∧ t = s.putWave h (w'.advance h.k) ∧ w' = { h.w with regs := w'.regs } ∧
      (∀ r, r ≠ vd.toNat → w'.reg r = h.w.reg r) ∧
      (w'.reg vd.toNat).elems = (h.w.reg vd.toNat).elems ∧ (w'.reg vd.toNat).base = (h.w.reg vd.toNat).base ∧
      (w'.reg vd.toNat).borrowers = (h.w.reg vd.toNat).borrowers ∧
      ∀ q : Lane, (w'.reg vd.toNat).loc[q] =
        if Mask.has (h.cov g) q then (if 2 ^ 31 ≤ (x q).toNat then none else some (laneOf (x q).toNat)) else (h.w.reg vd.toNat).loc[q])

/-- The ternary words (R62, R200, R201): they pack and unpack each covered thread's trits, or trap TRIT_CODE for the threads whose value
holds no trits, naming va. -/
def Obligations.TernaryWordsPack : Prop :=
  ∀ (s : State) (h : Here) (i : Instr) (g : Guard) (vd va : Reg) (ok : Word → Prop) (packs : Word → Word → Prop) (bad : Mask),
    Issues s h → i.wf = true → tritResult i = some (g, vd, va, ok, packs) →
    (∀ q, Mask.has bad q = true ↔ Mask.has (h.cov g) q = true ∧ ¬ ok (h.w.read va.toNat q)) →
    (bad ≠ 0 → exec i s = .next (s.takeTrap h ⟨.tritCode, bad, Mask.lowest bad, h.w.telem va.toNat (Mask.lowest bad), 0⟩)) ∧
    (bad = 0 → ∃ (t : State) (w' : Wave), exec i s = .next t ∧ Retires s t h (fun _ => h.cov g) [vd.toNat] false 0 w' ∧
      ∀ q, Mask.has (h.cov g) q = true → packs (h.w.read va.toNat q) (w'.read vd.toNat q))

/-! ## Control -/

/-- The control words that change no more than their own slot (R102, R147, R149, R152, R153), and the traps they raise (R146, R149): BRX names the
register of its pair whose bits are at fault, the high one for an address that is aligned and not canonical. Each completes: NOP, YIELD and SETEX.rst
always, BRA where all or none of EXEC is covered, BRA.any always, BRX where all of it is covered and agrees on an address it may go to, SETEX where
a thread stays.
It rests on a choice of the model's: log entry 68. -/
def Obligations.SlotWordsGoOn : Prop :=
  ∀ (s : State) (h : Here) (i : Instr),
    s.here = some h →
    (∀ p, slotResult h i = some (.ok p) → exec i s = .next (s.putWave h { h.w with slots := h.w.slots.set h.k p })) ∧
    (∀ tr, slotResult h i = some (.error tr) → exec i s = .next (s.takeTrap h tr)) ∧
    let p := h.w.slots[h.k]
    let on := p.went (p.pc + 8) p.exec p.hold false
    let goes (i : Instr) (q : PathSlot) : Prop := exec i s = .next (s.putWave h { h.w with slots := h.w.slots.set h.k q })
    let aside (m : Mask) : PathSlot := p.went (p.pc + 8) (p.exec &&& ~~~m) (p.hold ||| m) false
    goes .setexRst (p.went (p.pc + 8) (p.exec ||| p.hold) 0 false) ∧
    ∀ (g : Guard) (va : Reg) (pc : PredNo) (tgt join : BitVec 24),
      let jumped := p.went (p.pc + BitVec.ofInt 64 (8 * tgt.toInt)) p.exec p.hold false
      goes (.nop g) on ∧ goes (.yield g) { on with yielded := true, rest := 2 } ∧
      goes (.braAny g tgt) (if h.cov g = 0 then on else jumped) ∧
      (h.cov g = p.exec → goes (.bra g tgt join) jumped) ∧ (h.cov g = 0 → p.exec ≠ 0 → goes (.bra g tgt join) on) ∧
      (h.cov g = 0 → goes (.brx g va) on) ∧
      (∀ a : Addr, h.cov g ≠ 0 → h.cov g = p.exec → (∀ q, Mask.has p.exec q = true → h.w.read64 va.toNat q = a) → a.toNat % 8 = 0 → -2 ^ 56 ≤ a.toInt →
        a.toInt < 2 ^ 56 → goes (.brx g va) (p.went a p.exec p.hold false)) ∧
      (let m := wordBits (fun i => Mask.has (h.cov g) (laneOf i) && !h.w.pred pc (laneOf i))
       p.exec &&& ~~~m ≠ 0 → goes (.setexP g pc) (aside m)) ∧
      (∀ v : Mask, (∀ q, Mask.has (h.cov g) q = true → h.w.read va.toNat q = v) → p.exec &&& ~~~(h.cov g &&& ~~~v) ≠ 0 →
        goes (.setexV g va) (aside (h.cov g &&& ~~~v)))

/-- A divergent BRA, JOIN, CALL and RET (R146–R148, R150): what they do to the slots and the stack, and the traps they raise. -/
def Obligations.PathWordsFollowTheStack : Prop :=
  ∀ (s : State) (h : Here) (i : Instr),
    s.here = some h →
    (∀ w', pathResult h i s.nextId = some (.ok w') → exec i s = .next (s.putWave h w')) ∧
    (∀ tr, pathResult h i s.nextId = some (.error tr) → exec i s = .next (s.takeTrap h tr))

/-- EXIT (R151, R41, R434): where the slot's memory words have been performed and live threads remain in the wave, or it has no fault to deliver and
no memory word or reply to wait for, the covered threads exit: they leave EXEC and HOLD of both slots, and the barriers they count at are looked at
again, which changes nothing where no thread has arrived at one. The slot goes on at the next word; one whose EXEC has become empty goes on with
its held threads, or with the side or the union that its top entry gives, or ends, and its wave with it when the other slot is not live.
It rests on choices of the model's: log entries 51 and 61. -/
def Obligations.ExitEndsThreads : Prop :=
  ∀ (s : State) (h : Here) (g : Guard),
    s.here = some h →
    let gone := h.cov g
    let keep (m : Mask) := m &&& ~~~gone
    let p := h.w.slots[h.k]
    let w : Wave := { h.w with
      exited := h.w.exited ||| gone
      slots := h.w.slots.map (fun q => { q with exec := keep q.exec, hold := keep q.hold }) }
    (gone = 0 → exec (.exit g) s = .next (s.putWave h { h.w with slots := h.w.slots.set h.k (p.went (p.pc + 8) p.exec p.hold false) })) ∧
    (gone ≠ 0 → s.pathPerformed h = true → h.w.alive &&& ~~~gone ≠ 0 ∨
        (h.w.faults = [] ∧ s.unanswered h.ctx h.wv p = false ∧ s.unperformed h.g.core h.ctx h.wv = false) →
      ∃ w', exec (.exit g) s = .next ((s.putWave h w').afterGone h.ctx h.wv gone) ∧
        (h.w.spawned = false → s.deferred = false → s.noneArrived h → exec (.exit g) s = .next (s.putWave h w')) ∧
        (keep p.exec ≠ 0 →
          w' = { w with slots := w.slots.set h.k (p.went (p.pc + 8) (keep p.exec) (keep p.hold) false) }) ∧
        (keep p.exec = 0 → w.Empties h.k (p.pc + 8) s.nextId w'))

/-- SPAWN (R155): it traps MISALIGNED or PERMISSION for the threads whose entry is no code word of the kernel, naming va; it waits for the slot's
earlier accesses, and for another SPAWN that is part-way; each bin key has its threads so far and those appended, these last and in thread order
where no bin but the key's last takes threads; it goes on once every covered thread is in its bin, as where there are bins enough for all, and stalls
with the rest where a key finds no bin.
It rests on choices of the model's: log entries 36, 64 and 82. -/
def Obligations.SpawnFillsBins : Prop :=
  ∀ (s : State) (h : Here) (g : Guard) (va vb vc : Reg),
    s.here = some h →
    let entry (q : Lane) : Addr := h.w.read64 va.toNat q
    let mis := wordBits (fun n => Mask.has (h.cov g) (laneOf n) && decide ((entry (laneOf n)).toNat % 8 ≠ 0))
    let out := wordBits (fun n => Mask.has (h.cov g) (laneOf n) && !(decide (h.g.image.code.toNat ≤ (entry (laneOf n)).toNat ∧
      (entry (laneOf n)).toNat < h.g.image.code.toNat + h.g.image.codeLen)))
    (h.cov g ≠ 0 → h.w.halt = .handler → exec (.spawn g va vb vc) s = .next (s.takeTrap h (Trap.of .illegalConvergence (h.w.exec h.k)))) ∧
    (h.cov g = 0 ∨ h.w.halt ≠ .handler →
      (mis ≠ 0 → exec (.spawn g va vb vc) s =
        .next (s.takeTrap h ⟨.misaligned, mis, Mask.lowest mis, h.w.telem va.toNat (Mask.lowest mis), entry (Mask.lowest mis)⟩)) ∧
      (mis = 0 → out ≠ 0 → exec (.spawn g va vb vc) s =
        .next (s.takeTrap h ⟨.permission, out, Mask.lowest out, h.w.telem va.toNat (Mask.lowest out), entry (Mask.lowest out)⟩)) ∧
      (mis = 0 → out = 0 → s.pathPerformed h = false ∨ s.spawnUnderWay h = true →
        exec (.spawn g va vb vc) s = .next (s.putWave h (h.w.stallAt h.k .stall))) ∧
      (mis = 0 → out = 0 → s.pathPerformed h = true → s.spawnUnderWay h = false → h.g.core < Config.cores →
        let todo := h.cov g &&& ~~~h.w.slots[h.k].spawned
        ∃ (c' : Core) (left : Mask), (∀ q, Mask.has left q = true → Mask.has todo q = true) ∧
          ((s.core h.g.core).bins.length + Mask.count todo ≤ 8 → left = 0) ∧
          exec (.spawn g va vb vc) s = .next ((s.putWave h (
            if left = 0 then h.w.advance h.k
            else (h.w.stallAt h.k .stall).setSlot h.k (fun p => { p with spawned := h.cov g &&& ~~~left }))).modCore h.g.core (fun _ => c')) ∧
          c' = { s.core h.g.core with bins := c'.bins } ∧
          ∀ key,
            let joins := ((Mask.lanes (todo &&& ~~~left)).filter (fun q => entry q == key)).map (fun q => (h.w.read vb.toNat q, h.w.read vc.toNat q, h.w.uid))
            (c'.binThreads h.ctx key).Perm ((s.core h.g.core).binThreads h.ctx key ++ joins) ∧
              ((s.core h.g.core).lastOpen h.ctx key → c'.binThreads h.ctx key = (s.core h.g.core).binThreads h.ctx key ++ joins)))

/-! ## Memory words -/

/-- What a memory word does before it reaches memory (R156–R159, R16, R42, R258, R435): with no covered thread it goes on; misaligned
threads trap MISALIGNED; a word that an earlier one of its slot holds back waits; then, in scratch space, threads out of range trap
PERMISSION, and in global space threads whose address is not canonical trap PAGE_FAULT, naming the high half of an address pair.
It rests on choices of the model's: log entries 62 and 68. -/
def Obligations.MemoryWordsCheck : Prop :=
  ∀ (s : State) (h : Here) (i : Instr) (m : MemWord) (bad : Mask),
    s.here = some h → s.beyond = none → accessOf s h i = some m → (m.spec.space = .window → h.g.priv = true) →
    (m.cov = 0 → exec i s = .next (s.putWave h (h.w.advance h.k))) ∧
    ((∀ q, Mask.has bad q = true ↔ m.Off q) → bad ≠ 0 → exec i s = .next (s.takeTrap h (m.fault .misaligned bad))) ∧
    (m.cov ≠ 0 → (∀ q, ¬ m.Off q) →
      (s.heldBack h m = true → exec i s = .next (s.putWave h (h.w.stallAt h.k .stall))) ∧
      (s.heldBack h m = false → m.spec.space = .scratch →
        (∀ q, Mask.has bad q = true ↔ Mask.has m.cov q = true ∧ s.scratchPermits h.ctx h.g m q = false) → bad ≠ 0 →
        exec i s = .next (s.takeTrap h (m.fault .permission bad))) ∧
      (s.heldBack h m = false → m.spec.space = .global → (∀ q, Mask.has bad q = true ↔ m.Wild q) → bad ≠ 0 →
        exec i s = .next (s.takeTrap h { m.fault .pageFault bad with telem := m.highs[Mask.lowest bad] })))

/-- LD, LDS and LDU (R162–R164): every covered thread reads the bytes where its access goes, little-endian, extended as SX says, and
nothing else changes but what translating takes.
It rests on a choice of the model's: log entry 3. -/
def Obligations.LoadsReadMemory : Prop :=
  ∀ (s s1 : State) (h : Here) (i : Instr) (m : MemWord) (at_ : Lane → Nat → Option Target),
    Issues s h → i.wf = true → accessOf s h i = some m → m.spec.kind = .load ∨ m.spec.kind = .ldu → m.Granted s h s1 at_ →
    (∀ q, Mask.has m.cov q = true → ∀ run ∈ m.usedRuns q, ∃ p, at_ q run.1 = some p ∧ s1.sound h.g.part p run.2) →
    ∃ (t : State) (w' : Wave), exec i s = .next t ∧
      Retires (s1.modCore h.g.core (fun c => c.dropWord s.nextId)) t h (fun _ => m.cov) m.spec.dests false 0 w' ∧
      ∀ (d j : Nat), m.spec.dests[j]? = some d → ∀ q, Mask.has m.cov q = true → w'.read d q = m.wordOf (m.value s at_ q) j

/-- ST, STS and STU (R159, R162–R164): each byte stored to reads as the highest-numbered covered thread's that stores to it, every other
byte of device memory and of the scratchpad as before, and nothing else changes but the pc and what translating takes.
It rests on choices of the model's: log entries 3 and 59. -/
def Obligations.StoresWriteMemory : Prop :=
  ∀ (s s1 : State) (h : Here) (i : Instr) (m : MemWord) (at_ : Lane → Nat → Option Target) (key : Nat),
    Issues s h → i.wf = true → accessOf s h i = some m → m.spec.kind = .store ∨ m.spec.kind = .stu → m.Granted s h s1 at_ →
    (∀ q, Mask.has m.cov q = true → ∀ run ∈ m.usedRuns q, ∃ p, at_ q run.1 = some p ∧ p.near h.ctx key) →
    ∃ (base : State) (scratch : List (Nat × Byte)) (bad : List Nat),
      exec i s = .next ((base.modCore h.g.core (fun c => c.dropWord s.nextId)).putWave h (h.w.advance h.k)) ∧
      Stored s1 base h.ctx h.g.part key scratch bad ∧ (∀ x ∈ bad, x ∈ h.g.badScratch) ∧
      (∀ a, Memory.read base.mem a = (lastByte (m.writes at_) Target.devAddr a).getD (Memory.read s.mem a)) ∧
      (∀ a, Map.get scratch a 0 = (lastByte (m.writes at_) (Target.ownOffset h.ctx) a).getD (Map.get h.g.scratch a 0))

/-- ATOM, RED, CAS and MSCMD (R168–R171, R176) whose covered threads' locations are apart, and in one page where it is an atomic in global
space: each location takes the operation's result of what it held and the thread's operand, ATOM and CAS return what it held, and nothing else
changes but what translating takes. An atomic in several pages is applied page by page, ascending (R174): where all grant it, every location
takes its result, and the results come to the registers together; where one that comes after some that grant it does not, the locations of those
alone have taken theirs, no register is written, and, where that page's fault can be resolved, the word stands in the operand log with the mask
of the lanes applied.
It rests on a choice of the model's: log entry 3. -/
def Obligations.AtomicsUpdateMemory : Prop :=
  (∀ (s s1 : State) (h : Here) (i : Instr) (m : MemWord) (at_ : Lane → Nat → Option Target) (key : Nat) (place : Lane → Target),
    Issues s h → i.wf = true → accessOf s h i = some m →
    m.spec.kind = .atom ∨ m.spec.kind = .red ∨ m.spec.kind = .cas ∨ m.spec.kind = .mscmd → m.Granted s h s1 at_ →
    m.spec.space = .scratch ∨ m.spec.kind = .mscmd ∨ (m.pages m.cov).length = 1 →
    (∀ q, Mask.has m.cov q = true → at_ q 0 = some (place q) ∧ (place q).near h.ctx key ∧ s1.sound h.g.part (place q) m.spec.size) →
    (∀ q r, Mask.has m.cov q = true → Mask.has m.cov r = true → q ≠ r → (place q).Apart m.spec.size (place r)) →
    let old (q : Lane) : Nat := leNat ((List.range m.spec.size).map (s.byteAt (place q)))
    ∃ (t base : State) (w' : Wave) (scratch : List (Nat × Byte)) (bad : List Nat),
      exec i s = .next t ∧
      Retires (base.modCore h.g.core (fun c => c.dropWord s.nextId)) t h (fun _ => m.cov) m.spec.dests false 0 w' ∧
      Stored s1.draw base h.ctx h.g.part key scratch bad ∧ (∀ x ∈ bad, x ∈ h.g.badScratch) ∧
      (∀ (d j : Nat), m.spec.dests[j]? = some d → ∀ q, Mask.has m.cov q = true →
        w'.read d q = BitVec.ofNat 32 (old q / 2 ^ (32 * j))) ∧
      (∀ q, Mask.has m.cov q = true → ∀ n < m.spec.size,
        base.byteAt (place q) n = BitVec.ofNat 8 (m.leaves (m.datum q) (old q) / 256 ^ n)) ∧
      (∀ a, (∀ q ga k, Mask.has m.cov q = true → place q = .dev ga k → a < ga ∨ ga + m.spec.size ≤ a) →
        Memory.read base.mem a = Memory.read s.mem a) ∧
      (∀ a, (∀ q off, Mask.has m.cov q = true → place q = .scratch h.ctx off → a < off ∨ off + m.spec.size ≤ a) →
        Map.get scratch a 0 = Map.get h.g.scratch a 0)) ∧
  ∀ (s u u1 : State) (h : Here) (i : Instr) (m : MemWord) (key : Nat) (place : Lane → Target) (ps qs : List Nat),
    Issues s h → i.wf = true → accessOf s h i = some m → m.spec.kind = .atom ∨ m.spec.kind = .red ∨ m.spec.kind = .cas → m.spec.space = .global →
    m.cov ≠ 0 → (∀ q, ¬ m.Off q) → (∀ q, ¬ m.Wild q) → s.heldBack h m = false → s.deferred = false → s.awaited h.g.core s.nextId = 0 →
    s.remoteFullFor h.g.core h.ctx h.g m = false → m.pages m.cov = ps ++ qs → m.PagesGrant h s.nextId place s.takeId ps u →
    let on (q : Lane) : Prop := Mask.has m.cov q = true ∧ m.va q 0 / 65536 ∈ ps
    (∀ q, on q → (place q).near h.ctx key ∧ s.sound h.g.part (place q) m.spec.size) →
    (∀ q r, on q → on r → q ≠ r → (place q).Apart m.spec.size (place r)) →
    let old (q : Lane) : Nat := leNat ((List.range m.spec.size).map (s.byteAt (place q)))
    let applied (t : State) : Prop :=
      (∀ q, on q → ∀ n < m.spec.size, t.byteAt (place q) n = BitVec.ofNat 8 (m.leaves (m.datum q) (old q) / 256 ^ n)) ∧
      ∀ a, (∀ q ga k, on q → place q = .dev ga k → a < ga ∨ ga + m.spec.size ≤ a) → Memory.read t.mem a = Memory.read s.mem a
    (m.pages m.cov).Pairwise (· < ·) ∧
    (qs = [] → ∃ (t : State) (w' : Wave), exec i s = .next t ∧ t.waveOf h.ctx h.wv = some (w'.advance h.k) ∧ applied t ∧
      (∀ r, r ∉ m.spec.dests → ∀ q, Mask.has h.w.alive q = true → w'.read r q = h.w.read r q) ∧
      ∀ (d j : Nat), m.spec.dests[j]? = some d → ∀ q, Mask.has m.cov q = true → w'.read d q = BitVec.ofNat 32 (old q / 2 ^ (32 * j))) ∧
    ∀ (p : Nat) (rest : List Nat) (a : Attempt), qs = p :: rest → u.attempt h.g.core h.g.part h.g.asid m (m.onPage p) [p] = (u1, a) → u1.beyond = none →
      (s.core h.g.core).log.length < Config.logEntries →
      match a with
      | .ready _ => True
      | .park _ => ∃ t e, exec i s = .next t ∧ applied t ∧ t.waveOf h.ctx h.wv = some (h.w.advance h.k) ∧
          Map.find (t.core h.g.core).log s.nextId = some e ∧ e.parked = true ∧ ∀ q, Mask.has e.applied q = true ↔ on q
      | .denied _ _ => h.w.halt = .running → ∃ t w', exec i s = .next t ∧ applied t ∧ t.waveOf h.ctx h.wv = some w' ∧ w'.regs = h.w.regs ∧
          w'.frame.cause = BitVec.ofNat 32 Cause.permission.code

/-- LD2S (R165, R182, R183) into the group's own scratchpad, its threads' ranges there apart: each covered thread's bytes are copied, and
their number counts against the block barrier it names.
It rests on a choice of the model's: log entry 3. -/
def Obligations.Ld2sCopiesToScratch : Prop :=
  ∀ (s s1 : State) (h : Here) (g : Guard) (vd va vb : Reg) (mm : MemMod) (off : BitVec 12) (at_ : Lane → Nat → Option Target) (b : Word),
    Issues s h → (Instr.ld2s g vd va vb mm off).wf = true →
    let n := mm.size.bytes
    let m : MemWord :=
      { h.memWord s g ⟨.ld2s, .global, n, false, .rlx, .wave, .add, [], false⟩
          (Vector.ofFn (fun t => h.w.read64 va.toNat t + BitVec.ofInt 64 off.toInt)) [] va.toNat
          [va.toNat, va.toNat + 1, vb.toNat, vd.toNat] with
        aux := h.w.readRow vb.toNat, bar := b.toNat }
    let dst (q : Lane) : Nat := (h.w.read vb.toNat q).toNat
    m.Granted s h s1 at_ → b.toNat < 16 → (∀ q, Mask.has (h.cov g) q = true → h.w.read vd.toNat q = b) →
    (∀ q, Mask.has (h.cov g) q = true → dst q % n = 0 ∧ dst q + n ≤ h.g.image.scratch ∧ dst q < 2 ^ 30 ∧
      ∃ p, at_ q 0 = some p ∧ s1.sound h.g.part p n) →
    (∀ q r, Mask.has (h.cov g) q = true → Mask.has (h.cov g) r = true → q ≠ r → dst q + n ≤ dst r ∨ dst r + n ≤ dst q) →
    ∃ (base : State) (scratch : List (Nat × Byte)) (bad : List Nat),
      exec (.ld2s g vd va vb mm off) s = .next (((base.modCore h.g.core (fun c => c.dropWord s.nextId)).deliverTx h.ctx b.toNat
        (n * Mask.count (h.cov g))).stepOn h) ∧
      base = { s1 with groups := Map.modify s1.groups h.ctx (fun x => { x with scratch := scratch, badScratch := bad }) } ∧
      (∀ q, Mask.has (h.cov g) q = true → ∀ k < n,
        some (Map.get scratch (dst q + k) 0) = (at_ q 0).map (fun p => s.byteAt p k)) ∧
      (∀ a, (∀ q, Mask.has (h.cov g) q = true → a < dst q ∨ dst q + n ≤ a) → Map.get scratch a 0 = Map.get h.g.scratch a 0)

/-- PREF, CMAINT and FENCE (R166, R167, R175) change no value: only which lines are cached, and the pc; a FENCE waits for the slot's
accesses and unanswered writes.
It rests on a choice of the model's: log entry 63. -/
def Obligations.CacheWordsKeepValues : Prop :=
  ∀ (s : State) (h : Here) (i : Instr),
    s.here = some h → s.beyond = none →
    ((∃ g va hint off, i = .pref g va hint off) ∨ (∃ g va off, i = .cmaintDrop g va off ∨ i = .cmaintClean g va off ∨ i = .cmaintFlush g va off) ∨
        (∃ g, i = .cmaintDropall g) →
      ∃ t, exec i s = .next t ∧ t = { s.putWave h (h.w.advance h.k) with homeLines := t.homeLines, cores := t.cores, fresh := t.fresh } ∧
        ∀ c, t.core c = { s.core c with l1 := (t.core c).l1 }) ∧
    (∀ g order scope, i = .fence g order scope →
      exec i s = .next (s.putWave h (if s.slotQuiet h then h.w.advance h.k else h.w.stallAt h.k .stall)))

/-- A memory word whose places are not all there yet, or whose requests stay queued (R161, R257, R291, R302, R359): denied threads of one that is no
atomic trap PERMISSION; one with a faulting page parks in the operand log, if there is an entry free, and its slot goes on; one whose lanes to peers find no
room waits; where requests stay queued, a granted word goes among them and its slot goes on.
It rests on a choice of the model's: log entry 3. -/
def Obligations.MemoryWordsWait : Prop :=
  ∀ (s : State) (h : Here) (i : Instr) (m : MemWord),
    Issues s h → accessOf s h i = some m → m.cov ≠ 0 → (∀ q, ¬ m.Off q) → s.heldBack h m = false →
    let queued (s1 : State) : State :=
      (s1.modCore h.g.core (fun c => { c with reqs := Map.insert c.reqs s.nextId m })).putWave h (h.w.advance h.k)
    (m.spec.space = .scratch → (∀ q, Mask.has m.cov q = true → s.scratchPermits h.ctx h.g m q = true) → s.deferred = true →
      exec i s = .next (queued { s with nextId := s.nextId + 1 })) ∧
    (m.spec.space = .global → (∀ q, ¬ m.Wild q) → s.remoteFullFor h.g.core h.ctx h.g m = true →
      exec i s = .next (s.putWave h (h.w.stallAt h.k .stall))) ∧
    (m.spec.space = .global → (∀ q, ¬ m.Wild q) → s.remoteFullFor h.g.core h.ctx h.g m = false → ∀ (s1 : State) (a : Attempt),
      s.takeId.attempt h.g.core h.g.part h.g.asid m m.cov (m.pages m.cov) = (s1, a) → s1.beyond = none →
      match a with
      | .denied no x => m.spec.kind.atomic = false →
        exec i s = .next (s1.takeTrap h ⟨.permission, no, Mask.lowest no, m.telems[Mask.lowest no], x⟩)
      | .park m1 => m.spec.kind.atomic = false →
        m1.parked = true ∧
        exec i s = .next (
          if (s.core h.g.core).log.length < Config.logEntries then
            (s1.modCore h.g.core (fun c => { c.dropWord s.nextId with log := Map.insert (c.dropWord s.nextId).log s.nextId m1 })).putWave h
              (h.w.advance h.k)
          else s.putWave h (h.w.stallAt h.k .stall))
      | .ready _ => m.spec.kind.atomic = false → s.deferred = true → exec i s = .next (queued s1))

/-- LD and ST in window space (R193, R254, R255): unprivileged code traps PRIVILEGE; threads that name no place, one of another partition, a size
that the place does not take or a reserved bit trap PERMISSION; a place with a pending write or inside an instruction of matrix order is waited for.
Else LD gives each covered thread what lies at its place, which lays do not bear on; ST puts a thread's bytes there: the elements of a register whose
borrowers keep their values, a trit code 0b10 as trit 0, none in a plane format. A store to another core leaves when it is old enough (R307).
It rests on a choice of the model's: log entry 3. -/
def Obligations.WindowWordsAct : Prop :=
  ∀ (s : State) (h : Here) (i : Instr) (m : MemWord),
    Issues s h → i.wf = true → accessOf s h i = some m → m.spec.space = .window → m.spec.kind = .load ∨ m.spec.kind = .store →
    (h.g.priv = false → exec i s = .next (s.takeTrap h (Trap.of .privilege (h.w.exec h.k)))) ∧
    (h.g.priv = true → m.cov ≠ 0 → (∀ q, ¬ m.Off q) → s.heldBack h m = false →
      (∀ no, (∀ q, Mask.has no q = true ↔ m.WinDenied s h.g.part q) → no ≠ 0 → exec i s = .next (s.takeTrap h (m.fault .permission no))) ∧
      ((∀ q, ¬ m.WinDenied s h.g.part q) → (∃ q x, Mask.has m.cov q = true ∧ winAt m.addrs[q] = some x ∧ s.winBusy x = true) →
        exec i s = .next (s.putWave h (h.w.stallAt h.k .stall))) ∧
      ∀ place : Lane → WinAt, (∀ q, Mask.has m.cov q = true → winAt m.addrs[q] = some (place q) ∧ s.winBusy (place q) = false) →
        (∀ q, ¬ m.WinDenied s h.g.part q) →
        (m.spec.kind = .load → ∀ byte : Lane → Nat → Byte,
          (∀ q, Mask.has m.cov q = true → (∀ x ∈ s.history, x.coreNo = (place q).core → x.coreNo = h.g.core) ∧
            ∀ n < m.spec.size, s.windowByte (place q) n = some (byte q n)) →
          ∃ (base t : State) (w' : Wave), exec i s = .next t ∧ Retires base t h (fun _ => m.cov) m.spec.dests false 0 w' ∧
            base = { s with cores := base.cores } ∧ (∀ c, base.core c = s.core c) ∧
            ∀ (d j : Nat), m.spec.dests[j]? = some d → ∀ q, Mask.has m.cov q = true →
              w'.read d q = m.wordOf (((List.range m.spec.size).map (fun n => (byte q n).toNat * 256 ^ n)).sum) j) ∧
        (m.spec.kind = .store → s.deferred = true → (∃ q, Mask.has m.cov q = true ∧ (place q).core ≠ h.g.core) →
          exec i s = .next (({ s with nextId := s.nextId + 1 }.modCore h.g.core (fun c => { c with reqs := Map.insert c.reqs s.nextId m })).putWave h
            (h.w.advance h.k))) ∧
        (m.spec.kind = .store → s.deferred = false ∨ (∀ q, Mask.has m.cov q = true → (place q).core = h.g.core) →
          ∃ t, exec i s = .next t ∧ t.mem = s.mem ∧ (t.waveOf h.ctx h.wv).map Wave.slots = some (h.w.advance h.k).slots ∧
            ∀ q, (∀ r, Mask.has m.cov r = true ↔ r = q) → (∀ n < m.spec.size, s.windowByte (place q) n ≠ none) →
              match place q with
              | .trits c act row w =>
                ((s.core c).plane act).fmt = 0 ∧ row < 264 ∧ w < 16 → ∀ j < 16, (t.core c).physTrit ((t.core c).plane act) row (16 * w + j) =
                  (match m.datum q / 4 ^ j % 4 with | 1 => 1 | 3 => -1 | _ => 0)
              | .reg c p w e =>
                (∀ n < m.spec.size, t.windowByte (place q) n = some (BitVec.ofNat 8 (m.datum q / 256 ^ n))) ∧
                ∀ ctx wv r x, s.winReg c p w = some (ctx, wv, r) → s.waveOf ctx wv = some x → x.LaysOk → ∃ x', t.waveOf ctx wv = some x' ∧
                  (x'.reg r).tag = .none ∧ (x'.reg r).loc = (x.reg r).loc ∧
                  ∀ r' lane, r' ≠ r → Mask.has x.alive lane = true → x'.read r' lane = x.read r' lane
              | _ => ∀ n < m.spec.size, t.windowByte (place q) n = some (BitVec.ofNat 8 (m.datum q / 256 ^ n)))) ∧
    (h.g.priv = true → m.cov = 0 → exec i s = .next (s.putWave h (h.w.advance h.k)))

/-! ## Encoding -/

/-- Words of the spec's encoding examples (R74–R86, R97, R408, R409) decode to the instructions they stand for. -/
def Obligations.DecodeSpecWords : Prop :=
  decode 0x006E0A0C0E000000 = .ok (.iadd Guard.always 5 6 7 false false) ∧
    decode 0x00740A0C000000C9 = .ok (.iaddImmediate ⟨true, 2⟩ 5 6 100) ∧
    decode 0x300E0E08008B0010 = .ok (.ld Guard.always 7 4 ⟨.w, false, .acq, .device, .normal, .global⟩ 16) ∧
    decode 0x8170809024E1A1C0 =
      .ok (.pairIadd ⟨Guard.always, 8, .reg 9⟩ ⟨.fmul, ⟨Guard.always, 13, .reg 14⟩⟩) ∧
    decode 0x01EE080204060258 = .ok (.blut Guard.always 4 1 2 3 0x96) ∧
    decode 0x50AE002010120004 = .ok (.mma Guard.always 0 16 8 9 1) ∧
    decodeIn 1 0x080E020406000000 = .ok (.fadd Guard.always 1 2 3 .rne) ∧
    decodeIn 2 0x006E28C380000000 = .ok (.iadd Guard.always 5 6 7 false false) ∧
    decode 0x007E0A0C0E000000 = .error .guard ∧ decode 0x600E000000000000 = .error .unassigned

/-- Decode and encode agree (R71–R87): every well-formed word instruction has one word, and its eight bytes in memory decode to it, whatever
follows them; and no two words are one instruction and no bit of a word is dropped: what decodes is well formed, and encodes to the word it was.
It rests on a choice of the model's: log entry 37. -/
def Obligations.DecodeAndEncodeAgree : Prop :=
  (∀ (i : Instr) (rest : List Byte), i.wf = true →
    (i.isWord = true → ∃ x, encode i = some x ∧ decodeBytes (bytesOfNat 8 x.toNat ++ rest) = .ok (i, rest)) ∧
    (i.isWord = false → encode i = none)) ∧
  ∀ (x : BitVec 64) (i : Instr), decode x = .ok i → i.wf = true ∧ encode i = some x

/-! ## One step -/

/-- A step runs the decoded instruction (R71, R74, R88, R242, R249, R293): where the slot's next eight bytes decode, in the launch's mode, to an
instruction that passes its decode checks, whose hazards and port are clear and which consumes nothing uncorrectable, the step is the
instruction's effect once the lay table has room for the lays it takes (as it has for up to 64), followed by the port, the skid count and
the lay table. A word that is no instruction, or that names a register the wave does not have, raises ILLEGAL_BUNDLE or ILLEGAL_OPCODE at that step,
before it consumes or waits for anything, and has no other effect (R14, R87): TTHREAD is the lowest thread of EXEC, and TELEM is NOEL.
It rests on choices of the model's: log entries 1 and 3. -/
def Obligations.StepRunsDecoded : Prop :=
  (∀ (s s0 s1 : State) (h : Here) (bs : List Byte) (i : Instr),
    h.Fetches s s0 s1 bs → decodeIn h.g.image.mode (wordOfBytes bs) = .ok i → s1.decodeCheck h i = none → s1.heldWord h i = false →
    h.w.consumers h.k i = 0 →
    let n := (s1.newLays h i (exec i s1)).length
    s1.here = some h ∧
      ((s1.layEntries h.g.core (h.wv % 4)).length + n ≤ 64 → s1.makeRoom h i n 64 = some s1 ∧ s1.slotAt h.ref = some h) ∧
      ∀ s2 h2, s1.makeRoom h i n 64 = some s2 → s2.slotAt h.ref = some h2 →
        (∀ u, exec i s2 = .next u → ∃ t, s.StepsTo h.g.core (u.afterWord h2 i) t) ∧
        (∀ f, exec i s2 = .fault f → step s = .fault f) ∧ ∀ r, exec i s2 = .refused r → step s = .refused r) ∧
  ∀ (s s0 s1 : State) (h : Here) (bs : List Byte), h.Fetches s s0 s1 bs →
    let trap (c : Cause) : State := s1.takeTrap h ⟨c, h.w.exec h.k, Mask.lowest (h.w.exec h.k), 0x80000000, 0⟩
    (∀ e, decodeIn h.g.image.mode (wordOfBytes bs) = .error e →
      ∃ t, s.StepsTo h.g.core (trap (if (wordOfBytes bs).getLsbD 63 = true ∧ h.g.image.mode ≠ 1 ∧ h.g.image.mode ≠ 2
        then .illegalBundle else .illegalOpcode)) t) ∧
    ∀ i, decodeIn h.g.image.mode (wordOfBytes bs) = .ok i → (∃ r ∈ namedOf i, h.w.regCount ≤ r) →
      ∃ t, s.StepsTo h.g.core (trap .illegalOpcode) t

/-- A page walk (R348–R352) reads four levels: an invalid entry gives no leaf, and a well-formed device leaf maps its whole page to its frame
with the permissions it holds; an access that the leaf grants goes to the frame's byte, and an instruction fetch needs RD (R353, R354). -/
def Obligations.WalkReadsFourLevels : Prop :=
  ∀ (s : State) (part asid va root e3 t2 e2 t1 e1 : Nat), va < 2 ^ 57 →
    let p := s.part part
    s.Holds part (p.asdBase.toNat + 64 * asid + 8) root → s.Holds part (root + 8 * (va / 2 ^ 47)) e3 → TableEntry 4096 e3 t2 →
    s.Holds part (t2 + 8 * (va / 2 ^ 38 % 512)) e2 → TableEntry 4096 e2 t1 → s.Holds part (t1 + 8 * (va / 2 ^ 29 % 512)) e1 →
    let found (size e addr : Nat) : Prop := ∃ l, s.walk part asid va = .ok l ∧ l.va = va / size * size ∧ l.size = size ∧ l.addr = addr ∧
      ∀ (need : Need) (tag : Nat), s.granted part l need tag va =
        let bit := match need with
          | .read | .fetch | .engineRead | .memsideLoad => 2
          | .write | .engineWrite => 3
          | .atomic | .engineAtomic | .memside => 4
        if p.ownsKey (e / 2 ^ 11 % 64) = true ∧ e / 2 ^ bit % 2 = 1
        then some (.dev (p.place (e / 2 ^ 7 % 16) (e / 2 ^ 28 * 2 ^ 16 + va % size)) (e / 2 ^ 11 % 64)) else none
    (e1 % 2 = 0 → s.walk part asid va = .error .invalid) ∧
    (DeviceLeaf 1 (2 ^ 29) p.space e1 → found (2 ^ 29) e1 (t1 + 8 * (va / 2 ^ 29 % 512))) ∧
    (∀ t0 e0 size, TableEntry 65536 e1 t0 → s.Holds part (t0 + 8 * (va / 2 ^ 16 % 2 ^ 13)) e0 →
      (e0 % 2 = 0 → s.walk part asid va = .error .invalid) ∧
      (DeviceLeaf 0 size p.space e0 → found size e0 (t0 + 8 * (va / 2 ^ 16 % 2 ^ 13))))

/-! ## Reset, and what every step keeps -/

/-- The device right after reset (R326, R368, R371, R390, R422, R432, R271, R223): the CTXID count, the registers of the partition pages and of
the management page, the ports' lanes, the arrays' rows; and it meets the invariants: memory is in its one form, and it is sound. That the device of DEVSTAT 0 is booting is log entry 13's, that every TDI
is unlocked with PSTAT 0 log entry 14's.
It rests on choices of the model's: log entries 13 and 14. -/
def Obligations.ResetState : Prop :=
  State.reset.ctxCount = 1 ∧ State.reset.clusterSel = 0 ∧ State.reset.devState = .booting ∧ State.reset.epoch = 0 ∧ State.reset.groups = [] ∧
    (∀ p, (State.reset.part p).asdBase = 0 ∧ (State.reset.part p).pstat = 0 ∧ (State.reset.part p).tdi = .unlocked) ∧
    (∀ c, (State.reset.cluster c).pwrlim = 0x8000 ∧ (State.reset.cluster c).grace = 60 ∧ (State.reset.cluster c).testint = 6 ∧
      (State.reset.cluster c).idleOnly = false ∧ (State.reset.cluster c).castHead = 0 ∧ (State.reset.cluster c).frozen = false ∧
      (State.reset.cluster c).lanesRetired = 0 ∧ (State.reset.cluster c).banksRetired = 0) ∧
    (∀ c, (State.reset.core c).clock = 0 ∧ (State.reset.core c).spares = 0 ∧ (State.reset.core c).orgR = 0 ∧ (State.reset.core c).orgC = 0 ∧
      (State.reset.core c).retiredRows = []) ∧
    (∀ p : Fin 12, State.reset.ports[p].rate = 224 ∧ State.reset.ports[p].lanes.length = 4) ∧
    Memory.wf State.reset.mem = true ∧ Memory.wf State.reset.hostMem = true ∧ State.reset.Sound

/-- Every step keeps device and host memory in their one form; floors never fall, and time never runs back (R430). -/
def Obligations.MemoryFormAndFloorsKept : Prop :=
  ∀ s t : State, step s = .next t →
    (Memory.wf s.mem = true → Memory.wf s.hostMem = true → Memory.wf t.mem = true ∧ Memory.wf t.hostMem = true) ∧
    (∀ k : Fin 3, s.floors[k] ≤ t.floors[k]) ∧ s.now ≤ t.now

/-- Every step keeps a state sound: no lay aliases more than one level deep, a base has at most seven borrowers, a uniform tag is true of
the values, EXEC and HOLD hold no exited or dead thread (R30, R40, R41), and numbers of memory words stay fresh.
It rests on a choice of the model's: log entry 52. -/
def Obligations.SoundKept : Prop :=
  ∀ s t : State, s.Sound → step s = .next t → t.Sound

/-! ## Barriers -/

/-- What a barrier word does before its threads arrive (R177, R179–R183, R198, R298, R299): nothing without a covered thread; misuse traps
BARRIER_MISUSE; an operand that the threads do not agree on traps ILLEGAL_CONVERGENCE; BAR.sync and BAR.wait deliver the fault of a retired
batch or of a copy first, or the overflow of a transaction count; an arriving word waits for the slot's earlier accesses.
It rests on choices of the model's: log entries 25 and 68. -/
def Obligations.BarriersCheckAndWait : Prop :=
  ∀ (s : State) (h : Here) (i : Instr) (g : Guard) (level : Level) (index : BitVec 4) (comes : Bool) (fuse : Option Fuse) (vo : Option Reg),
     s.here = some h → s.beyond = none → barrierWord i = some (g, level, index, comes, fuse, vo) →
     let cov := h.cov g
     let misuse := exec i s = .next (s.takeTrap h (Trap.of .barrierMisuse cov))
     (cov = 0 → (∀ g, i ≠ .barWait g level index) → exec i s = .next (s.putWave h (h.w.advance h.k))) ∧
     (cov ≠ 0 → h.NoBarrier level → misuse) ∧
     (cov ≠ 0 → ¬ h.NoBarrier level →
       (∀ r, vo = some r → h.w.dissenting cov [r.toNat] ≠ 0 →
         exec i s = .next (s.takeTrap h (Trap.of .illegalConvergence (h.w.dissenting cov [r.toNat])))) ∧
       (WaitsAt i → ∀ f, h.w.owesFirst (h.w.owesAt level index) f → exec i s = .next (s.delivers h f)) ∧
       (WaitsAt i → (∀ f, ¬ h.w.owesAt level index f) → level = .block → (s.bar .block h.ctx index.toNat).overflow = true →
         exec i s = .next (s.deliversOverflow h index.toNat)) ∧
       ((∀ r, vo = some r → h.w.dissenting cov [r.toNat] = 0) → (WaitsAt i → s.clearAt h level index) → comes = true →
         (s.misused h level index.toNat cov fuse → misuse) ∧
         (¬ s.misused h level index.toNat cov fuse → s.slotQuiet h = false →
           (∀ r, vo = some r → -2 ^ 31 ≤ (s.bar .block h.ctx index.toNat).tx + (h.w.agreed cov r).toInt ∧
             (s.bar .block h.ctx index.toNat).tx + (h.w.agreed cov r).toInt < 2 ^ 31) →
           exec i s = .next (s.putWave h (h.w.stallAt h.k .stall)))) ∧
       (∀ va arr, i = .bartx g va index arr → h.w.dissenting cov [va.toNat] = 0 →
         let n := (s.bar .block h.ctx index.toNat).tx + (h.w.agreed cov va).toInt
         (n < -2 ^ 31 ∨ 2 ^ 31 ≤ n → (arr = true → ¬ s.misused h level index.toNat cov none) →
           exec i s = .next (s.takeTrap h (Trap.named h.w .barrierMisuse cov va.toNat 0))) ∧
         (arr = false → -2 ^ 31 ≤ n → n < 2 ^ 31 →
           exec i s = .next (((s.modBar .block h.ctx index.toNat (fun b => { b with tx := n })).putWave h (h.w.advance h.k)).settleBar
             .block h.ctx index.toNat))))

/-- BAR.wait and BAR.exp complete (R178, R179): a wait goes on at once where the phase of each last arrival of the wave's threads at the barrier is
over, and otherwise waits for the phases that are not; with no covered thread it does the same for the threads of EXEC; a wait before they have ever
arrived is misuse. An addition of what the covered threads agree on joins the expected arrivals of their barrier, and may complete its phase.
It rests on a choice of the model's: log entry 25. -/
def Obligations.BarrierWaitsComplete : Prop :=
  (∀ (s : State) (h : Here) (g : Guard) (level : Level) (index : BitVec 4),
    s.here = some h → s.beyond = none → ¬ h.NoBarrier level → s.clearAt h level index →
    let m := if h.cov g = 0 then h.w.exec h.k else h.cov g
    let last (t : Lane) := Map.find h.w.lastArrival (arrivalKey level (h.barOf level t) index.toNat)
    let isOpen (home : Nat) (p : BitVec 64) : Prop := (s.bar level home index.toNat).phase ≤ p
    ((∃ t, Mask.has m t = true ∧ last t ≠ none) → (∀ t p, Mask.has m t = true → last t = some p → ¬ isOpen (h.barOf level t) p) →
      exec (.barWait g level index) s = .next (s.putWave h (h.w.advance h.k))) ∧
    ((∃ t p, Mask.has m t = true ∧ last t = some p ∧ isOpen (h.barOf level t) p) →
      ∃ units, exec (.barWait g level index) s = .next (s.putWave h (h.w.stallAt h.k (.barrier level index.toNat units none))) ∧
        ∀ u, u ∈ units ↔ ∃ t, Mask.has m t = true ∧ u.1 = h.barOf level t ∧ last t = some u.2 ∧ isOpen u.1 u.2) ∧
    (h.cov g ≠ 0 → (∀ t, Mask.has m t = true → last t = none) →
      exec (.barWait g level index) s = .next (s.takeTrap h (Trap.of .barrierMisuse (h.cov g))))) ∧
  ∀ (s : State) (h : Here) (g : Guard) (index : BitVec 4) (va : Reg) (home : Nat),
    s.here = some h → s.beyond = none → h.cov g ≠ 0 → h.w.halt ≠ .handler → h.w.dissenting (h.cov g) [va.toNat] = 0 →
    (∀ t, Mask.has (h.cov g) t = true → h.barOf .wave t = home) →
    exec (.barExp g va index) s = .next (((s.putWave h (h.w.advance h.k)).modBar .wave home index.toNat (fun b =>
      { b with exp := b.exp + (h.w.agreed (h.cov g) va).toNat })).settleBar .wave home index.toNat)

/-- Arriving (R178–R180, R182): where the covered threads name one barrier, are not misused and owe nothing, they are marked as arrived in its
phase with what they contribute to a fuse, BARTX.arr's bytes are added, the wave remembers the phase, and the slot goes on or waits for that
phase; then the phase completes if it can. At a cluster or grid barrier the arrival leaves its core 40 clocks later where effects are held (R307).
It rests on choices of the model's: log entries 3 and 25. -/
def Obligations.ArrivalsCount : Prop :=
  ∀ (s : State) (h : Here) (i : Instr) (g : Guard) (level : Level) (index : BitVec 4) (fuse : Option Fuse) (vo : Option Reg) (home : Nat),
    s.here = some h → s.beyond = none → barrierWord i = some (g, level, index, true, fuse, vo) → h.cov g ≠ 0 → ¬ h.NoBarrier level →
    (∀ t, Mask.has (h.cov g) t = true → h.barOf level t = home) → (WaitsAt i → s.clearAt h level index) →
    ¬ s.misused h level index.toNat (h.cov g) fuse → s.slotQuiet h = true →
    let b := s.bar level home index.toNat
    let key := waveKey h.ctx h.w.uid
    let n : Int := (vo.map (fun r => (h.w.agreed (h.cov g) r).toInt)).getD 0
    (∀ r, vo = some r → h.w.dissenting (h.cov g) [r.toNat] = 0 ∧ -2 ^ 31 ≤ b.tx + n ∧ b.tx + n < 2 ^ 31) →
    let w := (arrives h level index.toNat home b.phase i).1
    let on (s : State) : State := s.modWave h.ctx h.wv (fun x =>
      { x with slots := w.slots, lastArrival := Map.insert h.w.lastArrival (arrivalKey level home index.toNat) b.phase })
    let vals := (arrives h level index.toNat home b.phase i).2
    (level = .wave ∨ level = .block ∨ s.deferred = false →
      exec i s = .next ((on (s.modBar level home index.toNat (fun b => { b with
        arrived := Map.insert b.arrived key (b.of key ||| h.cov g), kind := some fuse, parts := b.parts ++ vals, tx := b.tx + n }))).settleBar
          level home index.toNat)) ∧
    (level = .cluster ∨ level = .grid → s.deferred = true →
      exec i s = .next ((on s).modCore h.g.core (fun c => { c with
        posts := c.posts ++ [(c.clock.toNat, .arrival level home index.toNat b.phase key (h.cov g) fuse vals)] })))

/-- Completion of a phase (R178, R180): nothing happens before every member has arrived, exited or died and the count is 0; then the barrier
starts its next phase empty, the slots that waited for it alone go on, a fused arrival with the combination in its register, and other slots
keep their wait.
It rests on a choice of the model's: log entry 25. -/
def Obligations.PhasesComplete : Prop :=
  ∀ (s : State) (level : Level) (home index : Nat), s.hasBarrier level home index →
    let b := s.bar level home index
    let t := s.settleBar level home index
    (¬ s.Complete level home b → t = s) ∧
    (s.Complete level home b →
      t.bar level home index = { b with
        phase := b.phase + 1, arrived := [], exp := 0, tx := 0, kind := none, parts := [], gone := s.goneFor level home } ∧
      ∀ (ctx wv : Nat) (g : Group) (w : Wave), Map.find s.groups ctx = some g → g.waves[wv]? = some w → w.block = none →
        ∃ w', t.waveOf ctx wv = some w' ∧ ∀ k : Fin 2,
          ((∀ units fused, w.slots[k].wait = some (.barrier level index units fused) → (home, b.phase) ∉ units) → w'.slots[k] = w.slots[k]) ∧
          (∀ fused, w.slots[k].wait = some (.barrier level index [(home, b.phase)] fused) →
            w'.slots[k] = w.slots[k].went (w.slots[k].pc + 8) w.slots[k].exec w.slots[k].hold false ∧
            ∀ vd cov f, fused = some (vd, cov) → b.kind = some (some f) → w.LaysOk → w.slots[otherSlot k].live = false →
              w.slots[otherSlot k].wait = none →
              ∀ q, Mask.has cov q = true → Mask.has w.alive q = true → barHome ctx g w level q = home →
                w'.read vd.toNat q = (combined f.op f.rnd (w.fpctl &&& 1) b.parts).vals[0]?.getD 0))

/-! ## Exceptions -/

/-- Taking a trap (R43, R240, R291–R298): the wave's frame holds the cause, the word's address, EXEC, the lowest thread of the mask with its
TELEM and address; its path state is set aside; the halt goes to the group's other waves, and the handler starts at once if none has to stop,
in slot 0 with the threads of the mask, or RTT.kill where the kernel has none. A wave that a halt has reached, or is on its way to while no wave
of a higher number trapped in the same core clock, stops as a sibling instead; a trap in a handler ends the group.
It rests on a choice of the model's: log entry 51. -/
def Obligations.TakingATrap : Prop :=
  ∀ (s : State) (h : Here) (t : Trap), s.here = some h →
    let clock := (s.core h.g.core).clock.toNat
    let w := h.w.trappedBy h.k t s.nextId clock
    let killed (s : State) : State := (s.castGroup h.ctx h.g
      { cls := 0x01, cause := t.cause.code, addr := t.addr, data := t.telem, wave := h.wv, thread := t.thread.val }).killGroup h.ctx 2 t.cause.code
    (h.w.halt = .running → h.g.mustStop h.wv → s.takeTrap h t = s.modGroup h.ctx (fun _ => h.g.halted h.wv w)) ∧
    (h.w.halt = .running → ¬ h.g.mustStop h.wv → (∀ i v m c, i ≠ h.wv → h.g.waves[i]? = some v → v.halt ≠ .trapped m c) →
      (∀ off, h.g.image.handler = some off →
        s.takeTrap h t = s.modGroup h.ctx (fun _ => h.g.setWave h.wv (w.inHandler h.w.slots[h.k] (h.g.image.code + BitVec.ofNat 64 off) t.mask))) ∧
      (h.g.image.handler = none → s.takeTrap h t = killed (s.modGroup h.ctx (fun _ => h.g.setWave h.wv w)))) ∧
    (h.w.halt = .handler → s.takeTrap h t = killed s) ∧
    (∀ n c, h.w.halt = .skid n c → s.takeTrap h t = s.modWave h.ctx h.wv (fun w => w.stoppedAt h.k w.slots[h.k].pc n c)) ∧
    (h.w.halt = .coming → (∀ i v m, h.wv < i → h.g.waves[i]? = some v → v.halt ≠ .trapped m clock) →
      s.takeTrap h t = s.modWave h.ctx h.wv (fun w => w.stoppedAt h.k w.slots[h.k].pc 0 0))

/-- Returning from a trap (R219, R240, R300): outside a handler RTT and RTT.kill are illegal; a TPC that is no code address traps MISALIGNED; RTT
of blocks whose check codes pass restores the wave's path state and lets the stopped siblings go on. Where the log does not hold the trapping word,
its slot resumes at TPC. Where it does and TPC is the word after it, the word is discarded and the slot goes on as it waited; where TPC is any other
address but its own, the word is discarded and the slot resumes there; where TPC is the word itself, the slot goes on as it waited and the word is
replayed with its logged operands and only its remaining lanes: a store writes their bytes, a load their registers, a word whose pages still fault
stays parked with their records, one that is denied gives up, and one that may not be performed yet waits in the log.
It rests on choices of the model's: log entries 3, 24 and 28. -/
def Obligations.ReturnFromTrap : Prop :=
  ∀ (s : State) (h : Here) (g : Guard), s.here = some h → s.beyond = none →
    let tpc := h.w.frame.pc
    let ok : Prop := tpc.toNat % 8 = 0 ∧ -2 ^ 56 ≤ tpc.toInt ∧ tpc.toInt < 2 ^ 56
    let illegal := .next (s.takeTrap h (Trap.of .illegalOpcode (h.w.exec h.k)))
    (h.w.halt ≠ .handler → exec (.rtt g) s = illegal ∧ exec (.rttKill g) s = illegal) ∧
    (∀ b, h.w.halt = .handler → h.w.block = some b → ¬ ok →
      exec (.rtt g) s = .next (s.takeTrap h { Trap.of .misaligned (h.w.exec h.k) with addr := tpc })) ∧
    (∀ b, h.w.halt = .handler → h.w.block = some b → ok → s.blocksPass h.ctx → h.w.whole b →
      (∀ x ∈ s.groups, x.1 = h.ctx → ∀ v ∈ x.2.waves, ∀ c, v.halt = .stopped → v.block = some c → v.whole c) →
      let at_ (a : Addr) (wait : Option Wait) (s : State) : State := s.modGroup h.ctx (fun x => x.resumed h.wv (h.w.backAt b (b.slotAt a wait)))
      let as := b.slots[b.trapSlot].wait
      ((∀ id, b.entry = some id → Map.find (s.core h.g.core).log id = none) → exec (.rtt g) s = .next (at_ tpc none s)) ∧
      ∀ id m, b.entry = some id → Map.find (s.core h.g.core).log id = some m → s.awaited h.g.core id = 0 →
        (tpc = m.pc + 8 → exec (.rtt g) s = .next (at_ b.cont as (s.modCore h.g.core (fun c => c.dropWord id)))) ∧
        (tpc ≠ m.pc + 8 → tpc ≠ m.pc → exec (.rtt g) s = .next (at_ tpc none (s.modCore h.g.core (fun c => c.dropWord id)))) ∧
        (tpc = m.pc → m.ctx = h.ctx → m.wave = h.wv → m.spec.space = .global → m.spec.kind.atomic = false → s.deferred = false →
          let m0 : MemWord := { m with gaveUp := none, parked := false, issued := (s.core h.g.core).clock.toNat }
          let s0 := (at_ b.cont as s).modCore h.g.core (fun c => { c with log := Map.modify c.log id (fun m => { m with
            gaveUp := none, parked := false, issued := (s.core h.g.core).clock.toNat }) })
          let m1 : MemWord := { m0 with cov := m.cov &&& ~~~(h.w.dead &&& ~~~m.applied), tokens := [] }
          let left := m1.cov &&& ~~~m.applied
          let kept (s : State) (x : MemWord) : State :=
            s.modCore h.g.core (fun c => { c.dropWord id with log := Map.insert (c.dropWord id).log id x })
          ∀ x, Map.find s0.groups h.ctx = some x →
          (s0.mayPerform h.g.core id x m1 = false →
            exec (.rtt g) s = .next (s0.modCore h.g.core (fun c => { c with log := Map.modify c.log id (fun m => { m with tokens := [], parked := false }) }))) ∧
          (s0.mayPerform h.g.core id x m1 = true → ∀ (s1 : State) (a : Attempt),
            s0.attempt h.g.core h.g.part h.g.asid m1 left (m1.pages left) = (s1, a) → s1.beyond = none →
            match a with
            | .park m2 => exec (.rtt g) s = .next (kept s1 m2)
            | .denied no y => exec (.rtt g) s = .next (kept s1 { m1 with parked := true, gaveUp := some (.permission, no, y) })
            | .ready ls =>
              let go := s1.goes h.g.part ls m1
              (∀ key, m.spec.kind = .store → m.spec.dests = [] → m.badLanes = 0 →
                (∀ q, Mask.has left q = true → ∀ run ∈ m1.usedRuns q, ∃ p, go q run.1 = some p ∧ p.near h.ctx key) →
                ∃ (base : State) (scratch : List (Nat × Byte)) (bad : List Nat),
                  exec (.rtt g) s = .next (base.modCore h.g.core (fun c => c.dropWord id)) ∧
                  (∀ y, y ≠ h.ctx → Map.find base.groups y = Map.find s1.groups y) ∧
                  Map.find base.groups h.ctx = some { x with scratch := scratch, badScratch := bad } ∧
                  ∀ y, Memory.read base.mem y =
                    (lastByte (({ m1 with cov := left } : MemWord).writes go) Target.devAddr y).getD (Memory.read s.mem y)) ∧
              (m.spec.kind = .load → h.w.LaysOk → m.applied = 0 → m.badLanes = 0 → m.returns = Vector.replicate 32 0 → m.spec.dests.Nodup →
                (∀ d ∈ m.spec.dests, d < 256) → m.spec.size ∈ [1, 2, 4, 8, 16] → m.spec.dests.length = max 1 (m.spec.size / 4) →
                (∀ q, Mask.has left q = true → ∀ run ∈ m1.usedRuns q, ∃ p, go q run.1 = some p ∧ s1.sound h.g.part p run.2) →
                ∃ (t : State) (w w' : Wave), exec (.rtt g) s = .next t ∧ x.waves[h.wv]? = some w ∧ t.waveOf h.ctx h.wv = some w' ∧ w.SameBut w' ∧
                  Map.find (t.core h.g.core).log id = none ∧
                  (∀ r, r ∉ m.spec.dests → ∀ q, Mask.has h.w.alive q = true → w'.read r q = h.w.read r q) ∧
                  ∀ (d j : Nat), m.spec.dests[j]? = some d → ∀ q, Mask.has left q = true → Mask.has h.w.alive q = true →
                    w'.read d q = m1.wordOf (m1.value s go q) j)))) ∧
    (∀ l, h.w.halt = .handler → Map.find s.launches h.g.launch = some l →
      ∃ t, exec (.rttKill g) s = .next t ∧
        (∃ x, Map.find t.groups h.ctx = some x ∧ ∀ v ∈ x.waves, v.ended = true ∧ ∀ k : Fin 2, v.slots[k].live = false) ∧
        (s.deferred = false → ∃ l', Map.find t.launches h.g.launch = some l' ∧ l'.closed = true ∧
          (l.verdict = none → l'.verdict = some (2, h.w.frame.cause.toNat))) ∧
        (s.deferred = true → h.g.core < Config.cores →
          ((s.core h.g.core).clock.toNat, Post.killed h.ctx 2 h.w.frame.cause.toNat) ∈ (t.core h.g.core).posts) ∧
        (h.g.core < Config.cores → (t.core h.g.core).owner ≠ some h.ctx ∧ (∀ e ∈ (t.core h.g.core).log, e.2.ctx ≠ h.ctx) ∧
          (∀ e ∈ (t.core h.g.core).queue, e.ctx ≠ h.ctx) ∧ ∀ e ∈ (t.core h.g.core).copies, e.ctx ≠ h.ctx))

/-! ## The system group -/

/-- Privileged words in unprivileged code, and AFLIP outside test mode, trap PRIVILEGE with the mask EXEC whatever they cover, and have no other
effect (R193, R215, R221).
ICINV, TLBINV and GENBUMP (R228, R361–R363, R406) in privileged code: which cached words and leaves go, that an ICINV waits for the slot's earlier
accesses and a bump for the wave's, and that this advances the address space's generation, stores it, and gives it to the covered threads.
STEST (R229) in privileged code: a unit that may not be tested answers 3 at once; a test of another starts, and its end gives the covered threads
its outcome, which is stated of array and scratchpad units.
It rests on choices of the model's: log entries 3 and 29. -/
def Obligations.PrivilegedWordsAct : Prop :=
  (∀ (s : State) (h : Here) (i : Instr), s.here = some h → s.beyond = none → needsPrivilege h i →
     exec i s = .next (s.takeTrap h (Trap.of .privilege (h.w.exec h.k)))) ∧
  (∀ (s : State) (h : Here) (g : Guard) (vd va : Reg) (asid : BitVec 16), Issues s h → h.g.priv = true →
     let on := s.putWave h (h.w.advance h.k)
     let cov := h.cov g
     let pair := [va.toNat, va.toNat + 1]
     let a := h.w.agreed64 cov va
     let va57 := a.toNat % 2 ^ 57
     let no (rs : List Nat) := s.takeTrap h (Trap.of .illegalConvergence (h.w.dissenting cov rs))
     (cov = 0 → ∀ all, exec (.icinv g va all) s = .next on ∧ exec (.tlbinv g va asid all) s = .next on ∧ exec (.genbump g vd va) s = .next on) ∧
     (cov ≠ 0 →
       (s.pathPerformed h = false → ∀ all, exec (.icinv g va all) s = .next (s.putWave h (h.w.stallAt h.k .stall))) ∧
       (s.pathPerformed h = true → exec (.icinv g va true) s = .next (on.modCore h.g.core (fun c => { c with icache := [] }))) ∧
       exec (.tlbinv g va asid true) s = .next (on.modCore h.g.core (fun c => { c with tlb := c.tlb.filter (fun e => e.asid != asid) })) ∧
       (h.w.dissenting cov pair ≠ 0 → (s.pathPerformed h = true → exec (.icinv g va false) s = .next (no pair)) ∧
         exec (.tlbinv g va asid false) s = .next (no pair)) ∧
       (h.w.dissenting cov pair = 0 →
         (s.pathPerformed h = true → exec (.icinv g va false) s = .next (on.modCore h.g.core (fun c =>
           { c with icache := c.icache.filter (fun e => decide (¬ (e.1 = h.g.asid ∧ e.2.1.toNat / 64 = a.toNat / 64))) }))) ∧
         (-2 ^ 56 ≤ a.toInt → a.toInt < 2 ^ 56 → exec (.tlbinv g va asid false) s = .next (on.modCore h.g.core (fun c =>
           { c with tlb := c.tlb.filter (fun e => decide (¬ (e.asid = asid ∧ e.va ≤ va57 ∧ va57 < e.va + e.size))) })))) ∧
       (h.w.dissenting cov [va.toNat] ≠ 0 → exec (.genbump g vd va) s = .next (no [va.toNat])) ∧
       (h.w.dissenting cov [va.toNat] = 0 →
         let x := (h.w.agreed cov va).toNat
         (s.asidActive h.g.part x = false → exec (.genbump g vd va) s = .next (s.takeTrap h (Trap.named h.w .permission cov va.toNat 0))) ∧
         (s.asidActive h.g.part x = true → s.waveQuiet h = false → exec (.genbump g vd va) s = .next (s.putWave h (h.w.stallAt h.k .stall))) ∧
         (s.asidActive h.g.part x = true → s.waveQuiet h = true →
           (s.deferred = true → exec (.genbump g vd va) s = .next
             { s.putWave h (h.w.stallAt h.k (.bump x)) with bumps := s.bumps ++ [⟨x, h.g.part, none, some (⟨h.ctx, h.wv, h.k.val⟩, vd, cov)⟩] }) ∧
           (s.deferred = false → (∀ b ∈ s.bumps, b.asid ≠ x) → h.w.block = none →
             ∃ t w', exec (.genbump g vd va) s = .next t ∧ t.gen x = s.gen x + 1 ∧ t.waveOf h.ctx h.wv = some (w'.advance h.k) ∧
               h.w.SameBut w' ∧ ∀ q, Mask.has cov q = true → w'.read vd.toNat q = ((s.gen x + 1).setWidth 32 : Word)))))) ∧
  ∀ (s : State) (h : Here) (g : Guard) (vd : Reg) (unit : BitVec 16), Issues s h → h.g.priv = true →
    let u := unitOf h.g.core unit
    (h.cov g = 0 → exec (.stest g vd unit) s = .next (s.putWave h (h.w.advance h.k))) ∧
    (h.cov g ≠ 0 → s.refuses u = true →
      ∃ (s1 : State) (w' : Wave), Retires s s1 h (fun _ => h.cov g) [vd.toNat] false 0 w' ∧
        exec (.stest g vd unit) s = .next (s1.castUnit u 0x05 3 3) ∧
        ∀ q, Mask.has (h.cov g) q = true → w'.read vd.toNat q = 3) ∧
    (h.cov g ≠ 0 → s.refuses u = false → s.deferred = true →
      exec (.stest g vd unit) s = .next { s.putWave h (h.w.stallAt h.k (.test unit)) with
        tests := s.tests ++ [⟨u, some (⟨h.ctx, h.wv, h.k.val⟩, vd, h.cov g)⟩] }) ∧
    (h.cov g ≠ 0 → s.refuses u = false → s.deferred = false → h.w.block = none → u.cls = 1 ∨ u.cls = 2 →
      ∃ (t : State) (w' : Wave) (r : Word), exec (.stest g vd unit) s = .next t ∧ t.waveOf h.ctx h.wv = some (w'.advance h.k) ∧
        h.w.SameBut w' ∧ r ≤ 3 ∧ ∀ q, Mask.has (h.cov g) q = true → w'.read vd.toNat q = r)

/-- SYSRD and SYSWR (R18, R23–R27, R220–R223): what each register reads, with the identity lay; which may be written, and what of each;
a number that is not assigned, and a write of one that may not be written, trap ILLEGAL_OPCODE, and a write that would empty EXEC traps
ILLEGAL_CONVERGENCE; an OVFL bit set in the same core clock stays.
It rests on choices of the model's: log entries 23, 28 and 58. -/
def Obligations.SpecialRegisters : Prop :=
  ∀ (s : State) (h : Here) (g : Guard) (r : Reg) (n : BitVec 16), Issues s h → h.g.priv = true ∨ n.toNat < 0x100 →
    let illegal (i : Instr) : Prop := exec i s = .next (s.takeTrap h (Trap.of .illegalOpcode (h.w.exec h.k)))
    ((∀ q, (specials s h q).lookup n.toNat = none) → illegal (.sysrd g r n)) ∧
    (∀ v : Lane → Word, (∀ q, (specials s h q).lookup n.toNat = some (v q)) →
      ∃ (t : State) (w' : Wave), exec (.sysrd g r n) s = .next t ∧ Retires s t h (fun _ => h.cov g) [r.toNat] false 0 w' ∧
        (h.cov g ≠ 0 → w'.isIdentity r.toNat = true) ∧ ∀ q, Mask.has (h.cov g) q = true → w'.read r.toNat q = v q) ∧
    let v := h.w.agreed (h.cov g) r
    (((written h.g h.wv h.w h.k v).lookup n.toNat).isNone = true → illegal (.syswr g r n)) ∧
    (((written h.g h.wv h.w h.k v).lookup n.toNat).isSome = true →
      (h.cov g = 0 → exec (.syswr g r n) s = .next (s.putWave h (h.w.advance h.k))) ∧
      (h.cov g ≠ 0 → h.w.dissenting (h.cov g) [r.toNat] ≠ 0 →
        exec (.syswr g r n) s = .next (s.takeTrap h (Trap.of .illegalConvergence (h.w.dissenting (h.cov g) [r.toNat])))) ∧
      (h.cov g ≠ 0 → h.w.dissenting (h.cov g) [r.toNat] = 0 →
        (n.toNat = 0x0C → h.w.exec h.k &&& v = 0 →
          exec (.syswr g r n) s = .next (s.takeTrap h (Trap.of .illegalConvergence (h.w.exec h.k)))) ∧
        (¬ (n.toNat = 0x0C ∧ h.w.exec h.k &&& v = 0) →
          exec (.syswr g r n) s = .next (s.modGroup h.ctx (fun x => ((written x h.wv (h.w.advance h.k) h.k v).lookup n.toNat).getD x)))))

/-- TRAP, BPT, SLEEP, PREEMPT, EVREC and HALT (R218, R224–R227): with a covered thread TRAP and BPT trap with their code in TADDR and EVREC
casts its record; SLEEP waits; PREEMPT.off holds pre-emption off from now unless there is no budget, it is held or a stop is under way; a
privileged HALT sets the path state aside, and its group's other waves stop.
It rests on a choice of the model's: log entry 28. -/
def Obligations.SystemWordsAct : Prop :=
  ∀ (s : State) (h : Here) (g : Guard) (va : Reg) (code : BitVec 16), s.here = some h → s.beyond = none →
    let on := s.putWave h (h.w.advance h.k)
    let cov := h.cov g
    (∀ i cause, i = .trap g code ∧ cause = .software ∨ i = .bpt g code ∧ cause = .breakpoint →
      exec i s = .next (if cov = 0 then on else s.takeTrap h ⟨cause, cov, Mask.lowest cov, 0x80000000, code.setWidth 64⟩)) ∧
    exec (.sleep g code) s = .next (if code = 0 then on else s.putWave h (h.w.stallAt h.k (.sleep code.toNat))) ∧
    (h.g.budget = 0 ∨ h.g.held ≠ none ∨ h.g.stop ≠ none → exec (.preemptOff g) s = .next on) ∧
    (h.g.budget ≠ 0 → h.g.held = none → h.g.stop = none →
      exec (.preemptOff g) s = .next (on.modGroup h.ctx (fun x => { x with held := some s.now }))) ∧
    (h.g.held = none → exec (.preemptOn g) s = .next on) ∧
    (h.g.held ≠ none → exec (.preemptOn g) s = .next (on.modGroup h.ctx (fun x =>
      { x with held := none, stop := x.stop.map (fun p => if p.waiting then ⟨false, [], s.now, none⟩ else p) }))) ∧
    (cov = 0 → exec (.evrec g va code) s = .next on) ∧
    (cov ≠ 0 → h.w.dissenting cov [va.toNat] ≠ 0 →
      exec (.evrec g va code) s = .next (s.takeTrap h (Trap.of .illegalConvergence (h.w.dissenting cov [va.toNat])))) ∧
    (cov ≠ 0 → h.w.dissenting cov [va.toNat] = 0 → exec (.evrec g va code) s = .next (on.castGroup h.ctx h.g
      { cls := 0x09, cause := code.toNat % 256, addr := code.setWidth 64, data := h.w.agreed cov va, wave := h.wv })) ∧
    (h.g.priv = true → h.w.halt = .running → exec (.halt g) s = .next (s.modGroup h.ctx (fun x => x.halted h.wv { h.w with
      frame := { h.w.frame with pc := h.w.slots[h.k].pc, mask := h.w.exec h.k }
      block := some ⟨h.w.slots, h.w.stack, h.w.spilled, h.k, h.w.slots[h.k].pc + 8, none, 0, true, none, none, none⟩
      halt := .debug h.k false })))

/-- QSET (R22, R216): the record is word j of thread j, 0 for a thread that is not live; one that breaks a rule of R22 traps ENGINE_SHAPE, naming va, and
leaves the group's record, and a dead thread among the sixteen sets PATHS.DEADSRC.
It rests on a choice of the model's: log entry 73. -/
def Obligations.ShapeRecordsAreChecked : Prop :=
  ∀ (s : State) (h : Here) (g : Guard) (q : BitVec 4) (va : Reg), s.here = some h → s.beyond = none →
    let word (j : Nat) : Word := if Mask.has h.w.alive (laneOf j) then h.w.read va.toNat (laneOf j) else 0
    let w := { h.w with deadsrc := h.w.deadsrc || decide (∃ t : Lane, t.val < 16 ∧ Mask.has h.w.dead t = true) }
    ∃ r : BitVec 512, (∀ j < 16, r.extractLsb' (32 * j) 32 = word j) ∧
      (h.cov g = 0 → exec (.qset g q va) s = .next (s.putWave h (h.w.advance h.k))) ∧
      (h.cov g ≠ 0 → shapeBad r = true → exec (.qset g q va) s = .next ((s.putWave h w).takeTrap h (Trap.named h.w .engineShape (h.cov g) va.toNat 0))) ∧
      (h.cov g ≠ 0 → shapeBad r = false → exec (.qset g q va) s =
        .next (s.modGroup h.ctx (fun x => { x.setWave h.wv (w.advance h.k) with shapes := vmod x.shapes q.toNat (fun _ => r) })))

/-- LSUPD (R230): with an overflow event the loss scale halves, at least 2^-126, the count starts again and the events clear; at the count N it
doubles, at most 2^127; otherwise the count goes up. The covered threads read whether the step counts. -/
def Obligations.LossScaleStep : Prop :=
  ∀ (s : State) (h : Here) (g : Guard) (vd : Reg) (n : BitVec 16), Issues s h →
    let L := scaleOf h.g.lscale
    let bad := h.g.ovfl &&& 0xF ≠ 0
    ∃ (t : State) (w' : Wave) (x ovfl : Word) (c : BitVec 16),
      exec (.lsupd g vd n) s = .next t ∧ t = { s with groups := t.groups } ∧ (∀ k, k ≠ h.ctx → Map.find t.groups k = Map.find s.groups k) ∧
      Map.find t.groups h.ctx = some { h.g.setWave h.wv (w'.advance h.k) with lscale := x, lscnt := c, ovfl := ovfl } ∧
      h.w.SameBut w' ∧ (∀ q, Mask.has (h.cov g) q = true → w'.read vd.toNat q = if bad then 0 else 1) ∧
      (∀ r q, Mask.has h.w.alive q = true → r ≠ vd.toNat ∨ Mask.has (h.cov g) q = false → w'.read r q = h.w.read r q) ∧
      (FpFmt.f32.num x.toNat).isFin = true ∧
      (bad → (FpFmt.f32.num x.toNat).val = max (2 ^ (-126 : Int)) (L / 2) ∧ c = 0 ∧ ovfl = h.g.ovfl &&& ~~~0xF) ∧
      (¬ bad → n.toNat ≤ h.g.lscnt.toNat + 1 → (FpFmt.f32.num x.toNat).val = min (2 ^ (127 : Int)) (L * 2) ∧ c = 0 ∧ ovfl = h.g.ovfl) ∧
      (¬ bad → h.g.lscnt.toNat + 1 < n.toNat → (FpFmt.f32.num x.toNat).val = L ∧ c.toNat = h.g.lscnt.toNat + 1 ∧ ovfl = h.g.ovfl)

/-! ## Engine commands -/

/-- CPY, CPYMC and WVSEL (R184–R186, R190, R191, R291): nothing without a covered thread; the first operand on which the threads dissent traps
ILLEGAL_CONVERGENCE, then the command's own check; a command waits for the slot's earlier accesses.
It rests on choices of the model's: log entries 29 and 68. -/
def Obligations.EngineCommandsIssue : Prop :=
  ∀ (s : State) (h : Here) (i : Instr) (c : EngineCommand),
     s.here = some h → s.beyond = none → i.wf = true → engineCommand s h i = some c →
     let cov := h.cov c.guard
     (cov = 0 → exec i s = .next (s.putWave h (h.w.advance h.k))) ∧
     (∀ rs, cov ≠ 0 → h.w.firstDissent cov c.operands = some rs →
       exec i s = .next (s.takeTrap h (Trap.of .illegalConvergence (h.w.dissenting cov rs)))) ∧
     (cov ≠ 0 → h.w.firstDissent cov c.operands = none →
       (∀ t, c.refusal = some t → exec i s = .next (s.takeTrap h t)) ∧
       (c.refusal = none → s.slotQuiet h = false → exec i s = .next (s.putWave h (h.w.stallAt h.k .stall))))

/-- CPY.lin, CPY.tld, CPY.tst, CPY.tred and CPYMC complete (R184, R185, R187, R191, R252), as does WVSEL (R190). With a covered thread, operands
that agree, values the command permits and no earlier access of the slot under way, the slot goes on; where requests stay queued the command stands
last among its core's with its channel, barrier and tag, the channel's write pointer names its scratch destination, and a chunk's reservation is
asked for; where nothing stays queued it has been carried out. WVSEL selects the tag of the wave's later accesses.
It rests on choices of the model's: log entries 3 and 29. -/
def Obligations.CopyCommandsComplete : Prop :=
  (∀ (s : State) (h : Here) (i : Instr) (c : EngineCommand) (kind : CopyKind) (m : CopyMod),
     s.here = some h → s.beyond = none → i.wf = true → engineCommand s h i = some c → c.moves = some (kind, m) →
     h.cov c.guard ≠ 0 → h.w.firstDissent (h.cov c.guard) c.operands = none → c.refusal = none → s.slotQuiet h = true →
     (s.deferred = true → (∀ x ∈ (s.core h.g.core).copies, x.id < s.nextId) → (∀ o ∈ s.remote, o.2.cover.isSome = true → o.2.word < s.nextId) →
       exec i s = .next (s.queuedCopy h kind m)) ∧
     (s.deferred = false → (s.startCopy h kind m).beyond = none → exec i s = .next (s.startCopy h kind m))) ∧
  ∀ (s : State) (h : Here) (g : Guard) (va : Reg),
    s.here = some h → s.beyond = none → h.cov g ≠ 0 → h.w.dissenting (h.cov g) [va.toNat] = 0 → (h.w.agreed (h.cov g) va).toNat ≤ 7 →
    s.slotQuiet h = true →
    exec (.wvsel g va) s = .next (s.putWave h { h.w.advance h.k with tag := BitVec.ofNat 3 (h.w.agreed (h.cov g) va).toNat })

/-- CPY.lin within the group's own scratchpad, nothing queued (R184, R185, R187, R188): between ranges that share no byte it copies them, leaves
every other byte of the scratchpad and every register, moves the channel's write pointer to the end of the destination, and leaves nothing under way,
where the cluster's LIMIT leaves room for a reservation for each 4 KiB (R252).
It rests on a choice of the model's: log entry 3. -/
def Obligations.LinearCopyMovesBytes : Prop :=
  ∀ (s : State) (h : Here) (g : Guard) (vd va vb : Reg) (c : CopyMod),
    Issues s h → h.cov g ≠ 0 → s.deferred = false → c.bar = none →
    (∀ r ∈ [vd.toNat, va.toNat, vb.toNat], h.w.dissenting (h.cov g) [r] = 0) → s.slotQuiet h = true →
    (∀ x ∈ (s.core h.g.core).copies, ¬ (x.ctx = h.ctx ∧ x.wave = h.wv) ∧ x.id < s.nextId) → (∀ o ∈ s.remote, o.2.word < s.nextId) →
    h.g.badScratch = [] → h.g.core < Config.cores → h.w.block = none → h.g.stopping = false →
    let k := s.cluster (clusterOf h.g.core)
    k.waiting = [] → k.granted = [] → k.window + 64 * (((h.w.agreed (h.cov g) vb).toNat + 4095) / 4096) ≤ k.limit →
    let dst := (h.w.agreed (h.cov g) vd).toNat
    let src := (h.w.agreed (h.cov g) va).toNat
    let n := (h.w.agreed (h.cov g) vb).toNat
    0 < n → h.g.image.scratch < 2 ^ 30 → src + n ≤ h.g.image.scratch → dst + n ≤ h.g.image.scratch → src + n ≤ dst ∨ dst + n ≤ src →
    ∃ (t : State) (g' : Group) (w' : Wave),
      exec (.cpyLin g vd va vb c true true) s = .next t ∧ Map.find t.groups h.ctx = some g' ∧ g'.waves[h.wv]? = some w' ∧
      (∀ i < n, Map.get g'.scratch (dst + i) 0 = Map.get h.g.scratch (src + i) 0) ∧
      (∀ a, a < dst ∨ dst + n ≤ a → Map.get g'.scratch a 0 = Map.get h.g.scratch a 0) ∧ g'.badScratch = [] ∧
      w' = { h.w.advance h.k with writePtr := vmod h.w.writePtr c.ch.toNat (fun _ => BitVec.ofNat 32 (dst + n)) } ∧
      (t.core h.g.core).copies = (s.core h.g.core).copies ∧ t.mem = s.mem

/-- PUBL (R189, R358): an address that is not canonical traps PAGE_FAULT, which its higher register names; a page that is not mapped waits for its
fault record, or traps where there is no queue; one not backed by a staged page, not writable or under a key not the partition's traps PERMISSION;
it waits while a command of the wave may still write the page; then a bump of the address space begins, with which the entry's bit 19 changes at one
instant.
COLL (R192, R394): a tag in use waits; a record that cannot be read waits or traps, and its parts in peer memory are asked for; one that breaks R394
traps ENGINE_SHAPE; else the bucket is under way with its record, its results that came early counted.
It rests on choices of the model's: log entries 3, 29, 31 and 68. -/
def Obligations.PagesAndCollectivesStart : Prop :=
  (∀ (s : State) (h : Here) (g : Guard) (va : Reg),
     s.here = some h → s.beyond = none →
     let cov := h.cov g
     let on := s.putWave h (h.w.advance h.k)
     let a := h.w.agreed64 cov va
     let trap (c : Cause) := exec (.publ g va) s = .next (s.takeTrap h (Trap.named h.w c cov va.toNat a))
     (cov = 0 → exec (.publ g va) s = .next on) ∧
     (cov ≠ 0 → h.w.dissenting cov [va.toNat, va.toNat + 1] ≠ 0 →
       exec (.publ g va) s = .next (s.takeTrap h (Trap.of .illegalConvergence (h.w.dissenting cov [va.toNat, va.toNat + 1])))) ∧
     (cov ≠ 0 → h.w.dissenting cov [va.toNat, va.toNat + 1] = 0 → s.slotQuiet h = true →
       (a.toInt < -2 ^ 56 ∨ 2 ^ 56 ≤ a.toInt →
         exec (.publ g va) s = .next (s.takeTrap h (Trap.named h.w .pageFault cov (va.toNat + 1) a))) ∧
       (-2 ^ 56 ≤ a.toInt → a.toInt < 2 ^ 56 → s.walk h.g.part h.g.asid.toNat (a.toNat % 2 ^ 57) = .error .invalid →
         (s.hasQueue h.g.part h.g.asid.toNat = false → trap .pageFault) ∧
         (s.hasQueue h.g.part h.g.asid.toNat = true → ∀ s1 token,
           s.reportFault h.g.core h.g.part h.g.asid (a.toNat % 2 ^ 57) .engineWrite = (s1, token) → s1.beyond = none →
           exec (.publ g va) s = .next (s1.putWave h (h.w.stallAt h.k (.fetch token a))))) ∧
       (∀ l, -2 ^ 56 ≤ a.toInt → a.toInt < 2 ^ 56 → s.walk h.g.part h.g.asid.toNat (a.toNat % 2 ^ 57) = .ok l →
         (l.back ≠ 1 ∨ l.wr = false ∨ (s.part h.g.part).ownsKey l.key = false → trap .permission) ∧
         (l.back = 1 → l.wr = true → (s.part h.g.part).ownsKey l.key = true →
           ((∃ c ∈ (s.core h.g.core).copies, c.ctx = h.ctx ∧ c.wave = h.wv ∧ s.writesPage h.g.core h.g l.va l.size c = true) →
             exec (.publ g va) s = .next (s.putWave h (h.w.stallAt h.k .stall))) ∧
           ((∀ c ∈ (s.core h.g.core).copies, c.ctx = h.ctx → c.wave = h.wv → s.writesPage h.g.core h.g l.va l.size c = false) →
             let begun := { on with bumps := s.bumps ++ [⟨h.g.asid.toNat, h.g.part, some l.addr, none⟩] }
             (s.deferred = true → exec (.publ g va) s = .next begun) ∧
             (s.deferred = false → (begun.finishBump h.g.asid.toNat).beyond = none →
               exec (.publ g va) s = .next (begun.finishBump h.g.asid.toNat))))))) ∧
  ∀ (s : State) (h : Here) (g : Guard) (va : Reg) (tag : BitVec 3),
    s.here = some h → s.beyond = none →
    let cov := h.cov g
    let a := h.w.agreed64 cov va
    let asked (o : RemoteOp) : Prop := h.asks tag.toNat o = true
    let busy := (∃ x ∈ s.colls, x.2.ctx = h.ctx ∧ x.2.wave = h.wv ∧ x.2.tag = tag.toNat) ∨ ∃ o ∈ s.remote, asked o.2 ∧ o.2.open_ = true
    (cov = 0 → exec (.coll g va tag) s = .next (s.putWave h (h.w.advance h.k))) ∧
    (cov ≠ 0 → h.w.dissenting cov [va.toNat, va.toNat + 1] ≠ 0 →
      exec (.coll g va tag) s = .next (s.takeTrap h (Trap.of .illegalConvergence (h.w.dissenting cov [va.toNat, va.toNat + 1])))) ∧
    (cov ≠ 0 → h.w.dissenting cov [va.toNat, va.toNat + 1] = 0 → s.slotQuiet h = true →
      (busy → exec (.coll g va tag) s = .next (s.putWave h (h.w.stallAt h.k .stall))) ∧
      (¬ busy → ∀ i o rest, s.remote.filter (fun x => h.asks tag.toNat x.2) = (i, o) :: rest → exec (.coll g va tag) s = .next
        ({ s with remote := s.remote.filter (fun x => !h.asks tag.toNat x.2) }.takeTrap h (Trap.named h.w o.status.cause cov va.toNat o.va))) ∧
      (¬ busy → (∀ o ∈ s.remote, ¬ asked o.2) →
        ∀ s1 x, s.engineRead ⟨h.g.core, h.ctx, h.g, h.w.tag.toNat⟩ h.w.slots[h.k].got (.mem a) 64 = (s1, x) → s1.beyond = none →
        match x with
        | .error (.wait t x) => exec (.coll g va tag) s = .next (s1.putWave h (h.w.stallAt h.k (.fetch t x)))
        | .error (.fail cause x) => exec (.coll g va tag) s =
          .next (s1.takeTrap h (Trap.named h.w cause cov (va.toNat + if -2 ^ 56 ≤ x.toInt ∧ x.toInt < 2 ^ 56 then 0 else 1) x))
        | .error (.peers ps) =>
          ∃ t, exec (.coll g va tag) s = .next t ∧ t.waveOf h.ctx h.wv = some (h.w.stallAt h.k .stall) ∧ t.colls = s1.colls ∧
            (s1.remoteFull h.g.core h.ctx ps.length 0 = true → t.remote = s1.remote) ∧
            (s1.remoteFull h.g.core h.ctx ps.length 0 = false → (s1.remote.map Prod.fst).Nodup → (∀ y ∈ s1.remote, y.1 < s1.nextId) →
              ∀ p ∈ ps, ∃ y ∈ t.remote, asked y.2 ∧ y.2.window = p.2.1 ∧ y.2.op = .load p.2.2.2 ∧ y.2.va = p.1)
        | .ok bs =>
          let r : BitVec 512 := BitVec.ofNat 512 (leNat (bs.map Prod.fst))
          let mine (x : Nat × Nat × Nat × Nat) : Prop := x.1 = h.g.part ∧ x.2.1 = r.toNat / 2 ^ 480
          let queued (c : Coll) : State :=
            { s1.putWave h (h.w.advance h.k) with
              nextId := s1.nextId + 1
              early := s1.early.filter (fun x => decide (¬ mine x))
              colls := Map.insert s1.colls s1.nextId c }
          (collBad r = true → exec (.coll g va tag) s = .next (s1.takeTrap h (Trap.of .engineShape cov))) ∧
          (collBad r = false → ∃ c,
            (s.deferred = true → exec (.coll g va tag) s = .next (queued c)) ∧
            (s.deferred = false → ((queued c).braidTry s1.nextId).beyond = none → exec (.coll g va tag) s = .next ((queued c).braidTry s1.nextId)) ∧
            c.id = s1.nextId ∧ c.ctx = h.ctx ∧ c.wave = h.wv ∧ c.core = h.g.core ∧ c.tag = tag.toNat ∧ c.record = r ∧ c.ready = false ∧
              c.started = false ∧ c.sent = 0 ∧ c.stores = 0 ∧ c.summed = false ∧ c.own = [] ∧ c.left = [] ∧ c.parts = [] ∧ c.got = [] ∧
              c.token = none ∧ c.backing = h.w.tag ∧ c.written = (s1.early.filter (fun x => decide (mine x))).map (fun x => x.2.2))))

/-- CPYWP, CPYWT, COLLWT, MFENCE, MWAIT and MWAIT.all (R188, R192, R198, R212, R213, R299): CPYWP gives the covered threads the channel's write
pointer; a wait holds its slot while what it covers is under way, then delivers the first fault of it, then goes on; MFENCE closes the open batch,
unless 2^15 - 1 batches are closed and not retired, and gives the covered threads its number; MWAIT of a batch not closed traps ENGINE_SHAPE.
It rests on choices of the model's: log entries 29, 68 and 76. -/
def Obligations.EngineWaits : Prop :=
  ∀ (s : State) (h : Here) (g : Guard) (r : Reg) (n : BitVec 3), Issues s h →
    let on := s.putWave h (h.w.advance h.k)
    let stall := s.putWave h (h.w.stallAt h.k .stall)
    let cov := h.cov g
    let Waits (i : Instr) (busy : Prop) (owed : AsyncFault → Prop) : Prop :=
      (busy → exec i s = .next stall) ∧ (¬ busy → ∀ f, h.w.owesFirst owed f → exec i s = .next (s.delivers h f)) ∧
      (¬ busy → (∀ f ∈ h.w.faults, ¬ owed f) → exec i s = .next on)
    let Batches (i : Instr) (b : BitVec 16) : Prop :=
      Waits i (h.w.batch ≠ h.w.retired ∧ (b - (h.w.retired + 1)).toNat < 2 ^ 15)
        (fun f => ∃ x, f.cover = .batch x ∧ (b - x).toNat < 2 ^ 15 ∧ (h.w.retired - x).toNat < 2 ^ 15)
    (∃ (t : State) (w' : Wave), exec (.cpywp g r n) s = .next t ∧ Retires s t h (fun _ => cov) [r.toNat] false 0 w' ∧
      ∀ q, Mask.has cov q = true → w'.read r.toNat q = vget h.w.writePtr n.toNat 0) ∧
    Waits (.cpywt g n) (∃ c ∈ (s.core h.g.core).copies, c.ctx = h.ctx ∧ c.wave = h.wv ∧ c.ch = n.toNat) (fun f => f.cover = .channel n.toNat) ∧
    (cov = 0 → exec (.collwt g n) s = .next on) ∧
    (cov ≠ 0 → Waits (.collwt g n) (∃ c ∈ s.colls, c.2.ctx = h.ctx ∧ c.2.wave = h.wv ∧ c.2.tag = n.toNat) (fun f => f.cover = .coll n.toNat)) ∧
    (2 ^ 15 - 1 ≤ (h.w.batch - h.w.retired).toNat → exec (.mfence g r) s = .next stall) ∧
    ((h.w.batch - h.w.retired).toNat < 2 ^ 15 - 1 → s.deferred = true →
      ∃ (t : State) (w' : Wave), exec (.mfence g r) s = .next t ∧ t = s.putWave h ({ w' with batch := h.w.batch + 1 }.advance h.k) ∧ h.w.SameBut w' ∧
        (∀ q, Mask.has cov q = true → w'.read r.toNat q = (h.w.batch + 1).setWidth 32) ∧
        ∀ x q, Mask.has h.w.alive q = true → x ≠ r.toNat ∨ Mask.has cov q = false → w'.read x q = h.w.read x q) ∧
    ((h.w.batch - h.w.retired).toNat < 2 ^ 15 - 1 → ∃ (t : State) (w' : Wave), exec (.mfence g r) s = .next t ∧
      t.waveOf h.ctx h.wv = some w' ∧ w'.batch = h.w.batch + 1 ∧ w'.slots = (h.w.advance h.k).slots ∧
      ∀ q, Mask.has cov q = true → w'.read r.toNat q = (h.w.batch + 1).setWidth 32) ∧
    Batches (.mwaitAll g) h.w.batch ∧
    (cov = 0 → exec (.mwait g r) s = .next on) ∧
    (cov ≠ 0 → h.w.dissenting cov [r.toNat] ≠ 0 →
      exec (.mwait g r) s = .next (s.takeTrap h (Trap.of .illegalConvergence (h.w.dissenting cov [r.toNat])))) ∧
    (cov ≠ 0 → h.w.dissenting cov [r.toNat] = 0 →
      let b : BitVec 16 := (h.w.agreed cov r).setWidth 16
      let later : Prop := b ≠ h.w.batch ∧ (b - h.w.batch).toNat < 2 ^ 15
      (later → exec (.mwait g r) s = .next (s.takeTrap h (Trap.named h.w .engineShape cov r.toNat 0))) ∧ (¬ later → Batches (.mwait g r) b))

/-! ## Matrix words -/

/-- The checks of a collective matrix word, in their order (R194, R195): the array's owner, a converged wave, a covered thread, one format word in
every thread, a legal one, operands that agree.
It rests on a choice of the model's: log entry 33. -/
def Obligations.MatrixWordsConverge : Prop :=
  ∀ (s : State) (h : Here) (i : Instr) (m : MatrixWord),
    s.here = some h → s.beyond = none → i.wf = true → matrixWord i = some m →
    let cov := h.cov m.guard
    let all := h.w.exec h.k
    let fw := h.w.agreed all m.format
    let named (c : Cause) (mask : Mask) := exec i s =
      .next (s.takeTrap h ⟨c, mask, Mask.lowest mask, h.w.telem m.format.toNat (Mask.lowest mask), 0⟩)
    ((s.core h.g.core).owner ≠ some h.ctx → exec i s = .next (s.takeTrap h (Trap.of .engineShape (if cov = 0 then all else cov)))) ∧
    ((s.core h.g.core).owner = some h.ctx →
      (h.Scattered m.guard → exec i s = .next (s.takeTrap h (Trap.of .illegalConvergence all))) ∧
      (¬ h.Scattered m.guard → cov = 0 → exec i s = .next (s.putWave h (h.w.advance h.k))) ∧
      (¬ h.Scattered m.guard → cov ≠ 0 →
        (h.w.dissenting all [m.format.toNat] ≠ 0 → named .formatDivergence (h.w.dissenting all [m.format.toNat])) ∧
        (h.w.dissenting all [m.format.toNat] = 0 → IllegalFormat fw m.grouped → named .formatIllegal all) ∧
        (h.w.dissenting all [m.format.toNat] = 0 → ¬ IllegalFormat fw m.grouped →
          ∀ rs, h.w.firstDissent all m.operands = some rs →
            exec i s = .next (s.takeTrap h (Trap.of .illegalConvergence (h.w.dissenting all rs))))))

/-- A collective matrix word that passes the checks of R195 makes its own (R196, R203, R205–R211): MMA, TLDSC, ACLR, ADRAIN and the like trap on their shape or
join matrix order with what they read, the waiting ones holding their slot; TLD waits for the shadow, MMAS needs its rows in scratch space, and MMAG (R206, R207), once the slot's accesses are over, with a
legal descriptor whose images and rows may be read, joins with the descriptor's counts and images.
It rests on choices of the model's: log entries 3, 29, 33, 66 and 68. -/
def Obligations.MatrixWordsEnterOrder : Prop :=
  (∀ (s : State) (h : Here) (i : Instr) (m : MatrixWord),
     s.here = some h → s.beyond = none → i.wf = true → matrixWord i = some m →
     (s.core h.g.core).owner = some h.ctx → ¬ h.Scattered m.guard → h.cov m.guard ≠ 0 → h.w.dissenting (h.w.exec h.k) [m.format.toNat] = 0 →
     let all := h.w.exec h.k
     let fw := h.w.agreed all m.format
     let Joins (x : State) : Prop := (s.deferred = true → exec i s = .next x) ∧
       (s.deferred = false → (x.runMatrix h.g.core).beyond = none → exec i s = .next (x.runMatrix h.g.core))
     ¬ IllegalFormat fw m.grouped → h.w.firstDissent all m.operands = none →
     (∀ c op waits, matrixEffect h fw i = some (c, op, waits) →
       (∀ x, c = some x → exec i s = .next (s.takeTrap h x)) ∧
       (c = none → Joins (s.joined h op (if waits = true then some (.matrix s.nextId) else none)))) ∧
     (∀ g vd va vb vc nn nk west, i = .tld g vd va vb vc nn nk west →
       let a := h.w.agreed64 all va
       let p := h.w.agreed all vb
       let sc := h.w.agreed64 all vd
       let shadowed := ∃ e ∈ (s.core h.g.core).queue, e.op.usesShadow = true
       (16 ≤ nk.toNat → stationary fw ≠ 1 → exec i s = .next (s.takeTrap h (Trap.of .engineShape all))) ∧
       (nk.toNat < 16 ∨ stationary fw = 1 → stationary fw ≠ 1 ∨ (a.toNat % 2 = 0 ∧ p.toNat % 2 = 0 ∧ sc.toNat % 4 = 0) →
         (shadowed ∨ s.slotQuiet h = false → exec i s = .next (s.putWave h (h.w.stallAt h.k .stall))) ∧
         (¬ shadowed → s.slotQuiet h = true → s.deferred = true → exec i s =
           .next (s.joined h (.tld fw west (16 * (nk.toNat + 1)) (16 * (nn.toNat + 1)) a p sc) (some (.tile s.nextId)))))) ∧
     (∀ g va vb vc kc nt tile, i = .mmas g va vb vc kc nt tile →
       let base := h.w.agreed all va
       let pitches := h.w.agreed all vb
       let few := kc.toNat < (if stationary fw = 1 then 16 else 8)
       (¬ few → exec i s = .next (s.takeTrap h (Trap.of .engineShape all))) ∧
       (few → base.toNat % 4 ≠ 0 ∨ pitches.toNat % 4 ≠ 0 →
         exec i s = .next (s.takeTrap h (Trap.named h.w .misaligned all (if base.toNat % 4 ≠ 0 then va.toNat else vb.toNat) (base.setWidth 64)))) ∧
       (few → base.toNat % 4 = 0 → pitches.toNat % 4 = 0 →
         (∀ r < 32 * (nt.toNat + 1), r % 32 < h.g.image.lanes → s.outOfScratch h (base + BitVec.ofNat 32 (16 * (pitches.toNat / 2 ^ 14 % 2 ^ 14) * (r / 32) +
           pitches.toNat % 2 ^ 14 * (r % 32))) (rowBytes (fw.toNat % 8) (32 * (kc.toNat + 1))) = false) →
         (s.slotQuiet h = false → exec i s = .next (s.putWave h (h.w.stallAt h.k .stall))) ∧
         (s.slotQuiet h = true → Joins (s.joined h (.mmas fw tile.toNat nt.toNat kc.toNat base pitches h.w.dead) none))))) ∧
  ∀ (s : State) (h : Here) (g : Guard) (vd va vb vc : Reg) (kc : BitVec 5) (nt tile : BitVec 2) (bs : List Byte),
    s.here = some h → s.beyond = none → (Instr.mmag g vd va vb vc kc nt tile).wf = true →
    (s.core h.g.core).owner = some h.ctx → ¬ h.Scattered g → h.cov g ≠ 0 → h.w.dissenting (h.w.exec h.k) [vc.toNat] = 0 →
    let all := h.w.exec h.k
    let fw := h.w.agreed all vc
    let d := h.w.agreed all vd
    let base := h.w.agreed all va
    let pitches := h.w.agreed all vb
    ¬ IllegalFormat fw true → h.w.firstDissent all [[vd.toNat], [va.toNat], [vb.toNat]] = none →
    let shape := exec (.mmag g vd va vb vc kc nt tile) s = .next (s.takeTrap h (Trap.of .engineShape all))
    (1 < stationary fw ∨ (if stationary fw = 1 then 16 else 8) ≤ kc.toNat → shape) ∧
    (stationary fw ≤ 1 → kc.toNat < (if stationary fw = 1 then 16 else 8) →
      (d.toNat % 8 ≠ 0 → exec (.mmag g vd va vb vc kc nt tile) s =
        .next (s.takeTrap h (Trap.named h.w .misaligned all vd.toNat (d.setWidth 64)))) ∧
      (d.toNat % 8 = 0 → s.slotQuiet h = false → exec (.mmag g vd va vb vc kc nt tile) s = .next (s.putWave h (h.w.stallAt h.k .stall))) ∧
      (d.toNat % 8 = 0 → s.slotQuiet h = true → s.descriptor h d = none → exec (.mmag g vd va vb vc kc nt tile) s = .next (s.takeTrap h (
        if base.toNat % 4 ≠ 0 then Trap.named h.w .misaligned all va.toNat (base.setWidth 64)
        else if pitches.toNat % 4 ≠ 0 then Trap.named h.w .misaligned all vb.toNat (base.setWidth 64)
        else Trap.named h.w .permission all vd.toNat (d.setWidth 64)))) ∧
      (d.toNat % 8 = 0 → s.slotQuiet h = true → s.descriptor h d = some bs →
        let n := leNat (bs.take 4)
        let counts := ((bs.drop 4).take n).map BitVec.toNat
        let images := (List.range n).map (fun i => BitVec.ofNat 64 (leNat ((bs.drop (24 + 8 * i)).take 8)))
        (n = 0 ∨ 16 < n ∨ 32 * (nt.toNat + 1) < counts.sum ∨ (∃ b ∈ (bs.drop 20).take 4, b ≠ 0) → shape) ∧
        (1 ≤ n → n ≤ 16 → counts.sum ≤ 32 * (nt.toNat + 1) → (∀ b ∈ (bs.drop 20).take 4, b = 0) → (∀ a ∈ images, a.toNat % 16 = 0) →
          base.toNat % 4 = 0 → pitches.toNat % 4 = 0 →
          (∀ r < counts.sum, r % 32 < h.g.image.lanes → s.outOfScratch h (base + BitVec.ofNat 32 (16 * (pitches.toNat / 2 ^ 14 % 2 ^ 14) * (r / 32) +
            pitches.toNat % 2 ^ 14 * (r % 32))) (rowBytes (fw.toNat % 8) (32 * (kc.toNat + 1))) = false) →
          let x := s.draw.joined h (.mmag fw tile.toNat nt.toNat kc.toNat base pitches h.w.dead counts images 0) none
          (s.deferred = true → exec (.mmag g vd va vb vc kc nt tile) s = .next x) ∧
          (s.deferred = false → (x.runMatrix h.g.core).beyond = none → exec (.mmag g vd va vb vc kc nt tile) s = .next (x.runMatrix h.g.core)))))

/-- AFLIP (R215): outside test mode it traps PRIVILEGE; in test mode it does nothing without a covered thread, and needs the array's owner and an
agreed, legal place; then it joins matrix order, and there inverts that bit of that element and nothing else.
It rests on choices of the model's: log entries 3 and 68. -/
def Obligations.TestFlipsOneBit : Prop :=
  (∀ (s : State) (h : Here) (g : Guard) (va : Reg) (tile : BitVec 2), s.here = some h → s.beyond = none → h.g.test = false →
    exec (.aflip g va tile) s = .next (s.takeTrap h (Trap.of .privilege (h.w.exec h.k)))) ∧
  (∀ (s : State) (h : Here) (g : Guard) (va : Reg) (tile : BitVec 2),
    s.here = some h → s.beyond = none → h.g.test = true →
    let cov := h.cov g
    let e := (h.w.agreed cov va).toNat
    (cov = 0 → exec (.aflip g va tile) s = .next (s.putWave h (h.w.advance h.k))) ∧
    (cov ≠ 0 → (s.core h.g.core).owner ≠ some h.ctx → exec (.aflip g va tile) s = .next (s.takeTrap h (Trap.of .engineShape cov))) ∧
    ((s.core h.g.core).owner = some h.ctx →
      (cov ≠ 0 → h.w.dissenting cov [va.toNat] ≠ 0 →
        exec (.aflip g va tile) s = .next (s.takeTrap h (Trap.of .illegalConvergence (h.w.dissenting cov [va.toNat])))) ∧
      (cov ≠ 0 → h.w.dissenting cov [va.toNat] = 0 →
        (98 < e / 2 ^ 13 % 128 ∨ 2 ^ 20 ≤ e → exec (.aflip g va tile) s = .next (s.takeTrap h (Trap.named h.w .engineShape cov va.toNat 0))) ∧
        (e / 2 ^ 13 % 128 ≤ 98 → e < 2 ^ 20 →
          let x := s.joined h (.aflip tile.toNat (e % 32) (e / 32 % 256) (e / 2 ^ 13)) none
          (s.deferred = true → exec (.aflip g va tile) s = .next x) ∧
          (s.deferred = false → (x.runMatrix h.g.core).beyond = none → exec (.aflip g va tile) s = .next (x.runMatrix h.g.core)))))) ∧
  (∀ (s : State) (core : Nat) (e : MatEntry) (tile row col bit : Nat),
    core < Config.cores → tile < 4 → s.voided e = false → (Map.find s.groups e.ctx).isSome = true → e.op = .aflip tile row col bit →
    ∃ t, s.takeEffect core e = (t, .done 0) ∧ t = { s with cores := t.cores } ∧ (∀ k, k ≠ core → t.core k = s.core k) ∧
      t.core core = { s.core core with tiles := (t.core core).tiles } ∧ ∀ x : Fin 4, (t.core core).tiles[x] =
        if x.val = tile then ((s.core core).tiles[x]).flip row col bit else (s.core core).tiles[x]) ∧
  ∀ (t : Tile) (row col bit : Nat), row < 32 → col < 256 → bit < 99 →
    (t.flip row col bit).anchor = t.anchor ∧ (t.flip row col bit).chk = t.chk ∧ (t.flip row col bit).cc = t.cc ∧ (t.flip row col bit).rc = t.rc ∧
    ∀ m n, m < 32 → n < 256 →
      (t.flip row col bit).el m n =
        if m = row ∧ n = col then
          ⟨BitVec.ofFnLE (fun i : Fin 96 => (t.el m n).x.getLsbD i.val != decide (i.val = bit)),
            (t.el m n).inexact != decide (bit = 96), (t.el m n).overflow != decide (bit = 97), (t.el m n).poison != decide (bit = 98)⟩
        else t.el m n

/-- The accumulator (R64): an exact product joins an element, truncated toward minus infinity at the tile's unit, saturating at 96 bits, with its
inexact and overflow flags; an element that has overflowed stays.
MMA of INT8 rows against a ternary plane at its place in matrix order (R65, R196, R204, R208): where the plane has the word's format and the tile its
anchor, each element takes the two bands' exact sums in order, and the poison of a dead row or a poisoned column; a parked thread's row (R410) and
the other tiles stay. ACLR
clears a tile to the anchor and the check mode of its format word (R209). A word that disagrees changes no tile.
It rests on a choice of the model's: log entry 33. -/
def Obligations.ProductsAccumulate : Prop :=
  (∀ (alpha : Int) (el : Elem) (v e : Int), Adds alpha el v e (accAdd alpha el v e)) ∧
  ∀ (s : State) (core : Nat) (e : MatEntry) (g : Group) (fw : Word) (tile k0 : Nat) (rows : List (List Byte × Word)) (dead : Mask),
    core < Config.cores → tile < 4 → s.voided e = false → Map.find s.groups e.ctx = some g →
    let c := s.core core
    let t := c.tiles.toList[tile]?.getD Tile.zero
    let after := (s.takeEffect core e).1.core core
    let new := after.tiles.toList[tile]?.getD Tile.zero
    (e.op = .aclr fw tile → new = ⟨[], fw.extractLsb' 6 9, fw.getLsbD 16, [], [], [], false⟩) ∧
    (e.op = .mma fw tile k0 rows dead → stationary fw ≠ c.active.fmt.toNat ∨ t.anchor ≠ fw.extractLsb' 6 9 ∨ t.chk ≠ fw.getLsbD 16 →
      after.tiles = c.tiles) ∧
    (e.op = .mma fw tile k0 rows dead → stationary fw = c.active.fmt.toNat → stationary fw ≤ 1 → fw.toNat % 8 = 0 → t.anchor = fw.extractLsb' 6 9 →
      t.chk = fw.getLsbD 16 → t.bad = [] → t.badAnchor = false → rows.length = 32 → (∀ r ∈ rows, r.1.length = 32) →
      (∀ m n, g.image.lanes ≤ m → m < 32 → n < 256 → new.el m n = t.el m n) ∧
      (∀ m n, m < 32 → m < g.image.lanes → n < 256 →
        let band (b : Nat) : Int := ((List.range 16).map (fun i =>
          (if dead.getLsbD m then 0 else rowInt (rows[m]?.getD ([], 0)) (16 * b + i)) * Map.get c.active.elems (256 * (k0 + 16 * b + i) + n) 0)).sum
        ∃ mid last, Adds t.anchor.toInt (t.el m n) (band 0) 0 mid ∧ Adds t.anchor.toInt mid (band 1) 0 last ∧
          new.el m n = { last with poison := last.poison || dead.getLsbD m || decide (n ∈ c.active.poisoned) }) ∧
      ∀ x, x ≠ tile → after.tiles.toList[x]? = c.tiles.toList[x]?)

/-! ## Events -/

/-- The events of a core (R155, R227, R226, R236, R237, R248, R293–R297, R306, R362, R414): where each may happen, and what it leaves. ISSUE
chooses at most four words of waves of its partition, which come next; a starved slot comes next, but for a single word while a pair is starved;
SLEEP ends at its word's end; a bin launches a wave whose threads start at its key with their arguments in v0 and v1; a halt stops a waiting wave at
once and lets another issue on; the handler starts with the threads of the fault mask; a strike stops issue for 64 clocks; the debug agent resumes
at TPC + 8.
It rests on choices of the model's: log entries 1, 28, 51, 53, 64, 77 and 91. -/
def Obligations.CoreEventsHappen : Prop :=
  ∀ s : State, s.beyond = none →
    (∀ core part, s.coreRuns core = true → core < Config.cores → part < 4 →
      ∃ (t : State) (ws : List SlotRef), exec (.issue core part) s = .next t ∧ t.agenda = ws.map Move.word ++ s.agenda ∧ ws.length ≤ 4 ∧ (∀ r ∈ ws, r.wave % 4 = part) ∧
        t.mem = s.mem ∧ t.hostMem = s.hostMem ∧ (part ∉ (s.core core).turns → t.launches = s.launches)) ∧
    (∀ slot h, s.slotAt slot = some h → h.starved = true → s.ready h = true → s.resting h = false → s.behindPair h = false →
      (∀ x ∈ s.candidates h.g.core, x.wv % 4 = h.wv % 4 → x.starved = true → x.w.slots[x.k].starved ≤ h.w.slots[h.k].starved) →
      exec (.starvation slot) s = .next { s with agenda := .word ⟨h.ctx, h.wv, h.k.val⟩ :: s.agenda }) ∧
    (∀ slot h, s.slotAt slot = some h → h.w.slots[h.k].wait = some (.sleep 0) →
      exec (.sleepExpiry slot) s = .next (s.putWave h (h.w.advance h.k))) ∧
    (∀ core bin b g, (s.core core).bins[bin]? = some b → b.launching = false → Map.find s.groups b.ctx = some g → g.binInterval ≤ b.timer →
      exec (.binTimerExpiry core bin) s =
        .next (s.modCore core (fun c => { c with bins := c.bins.modify bin (fun b => { b with
          launching := true, order := c.nextLaunch, since := c.clock.toNat }) }))) ∧
    (∀ core bin b i g w, (s.core core).bins[bin]? = some b → s.binSlot b = some (i, g, w) → b.launching = true →
      b.since < (s.core core).clock.toNat → (∀ v ∈ g.waves, v.halt = .running) →
      s.binAhead core b = false → s.groupRuns g = true → s.coreRuns core = true → 0 < b.threads.length →
      ∃ w', exec (.binLaunch core bin) s = .next (((s.vacate core b.ctx i w).modGroup b.ctx (fun x =>
          { x.setWave i w' with born := x.born + 1 })).modCore core (fun c => { c with bins := c.bins.eraseIdx bin })) ∧
        w'.uid = g.born ∧ w'.spawned = true ∧ w'.slots[(0 : Fin 2)].live = true ∧ w'.slots[(0 : Fin 2)].pc = b.key ∧ w'.slots[(1 : Fin 2)].live = false ∧
        w'.origins = b.threads.map (fun x => x.2.2) ∧ ∀ q : Lane, Mask.has w'.slots[(0 : Fin 2)].exec q = decide (q.val < b.threads.length) ∧
          Mask.has w'.alive q = decide (q.val < b.threads.length) ∧
          ∀ x, b.threads[q.val]? = some x → (w'.reg 0).elems[q] = x.1 ∧ (w'.reg 1).elems[q] = x.2.1) ∧
    (∀ ctx wave g w, Map.find s.groups ctx = some g → g.waves[wave]? = some w → w.halt = .coming →
      exec (.haltArrival ctx wave) s = .next (s.modWave ctx wave (fun w =>
        if s.idleWave ctx g wave then w.wake.stoppedNext 0 0 else { w.wake with halt := .skid 0 0 }))) ∧
    (∀ ctx wave g w n c, Map.find s.groups ctx = some g → g.waves[wave]? = some w → w.halt = .skid n c →
      16 ≤ n ∨ 48 ≤ c ∨ s.idleWave ctx g wave = true →
      exec (.siblingStop ctx wave) s = .next (s.modWave ctx wave (fun w => w.stoppedNext (min n 16) (min c 48)))) ∧
    (∀ ctx g i w m c, Map.find s.groups ctx = some g → g.waves[i]? = some w → w.halt = .trapped m c → g.halting = false →
      (∀ j v x y, j < i → g.waves[j]? = some v → v.halt ≠ .trapped x y) →
      (∀ off, g.image.handler = some off → exec (.handlerEntry ctx) s = .next (s.modWave ctx i (fun w =>
        w.inHandler ((w.block.map (fun b => b.slots[b.trapSlot])).getD PathSlot.empty) (g.image.code + BitVec.ofNat 64 off) w.faultMask))) ∧
      (g.image.handler = none → exec (.handlerEntry ctx) s = .next (s.rttKill ctx i g w))) ∧
    (∀ core, s.devState = .running → core < Config.cores →
      ∃ t, (t.beyond = none → exec (.strike core) s = .next t) ∧ (t.core core).stopLeft = 64 ∧
        ((∀ p n, (s.cluster (clusterOf core)).fieldTest = .run p n → n < 2) → exec (.strike core) s = .next t ∧ t.mem = s.mem ∧ t.hostMem = s.hostMem ∧
          ((keepRecent core (s.core core).clock.toNat s.history).filter (fun x => x.coreNo == core) = [] → t.groups = s.groups))) ∧
    (∀ core, 0 < (s.core core).stopLeft →
      ∃ t, exec (.rollbackResume core) s = .next t ∧ (core < Config.cores → (t.core core).stopLeft = 0 ∧
        (t.core core).clock = (s.core core).clock + BitVec.ofNat 64 (s.core core).stopLeft)) ∧
    (∀ ctx g w, Map.find s.groups ctx = some g → g.waves.find? (fun w => w.halt.isDebug) = some w → g.halting = false →
      exec (.debugAgentResume ctx true) s = .next (s.killGroup ctx 2 w.frame.cause.toNat) ∧
      ∃ t x, exec (.debugAgentResume ctx false) s = .next t ∧ Map.find t.groups ctx = some x ∧
        ∀ (i : Nat) (v : Wave) (k : Fin 2) (b : Block), g.waves[i]? = some v → v.halt = .debug k false → v.block = some b → v.whole b →
          ∃ v' : Wave, x.waves[i]? = some v' ∧ v'.halt = .running ∧ v'.block = none ∧ v'.slots[k].pc = v.frame.pc + 8 ∧
            v'.slots[k].exec = b.slots[k].exec) ∧
    (∀ asid b, s.bumps.find? (fun b => b.asid == asid) = some b → s.inSpace b.part (s.asd b.part asid + 38) 2 = true →
      (∀ a, b.publishes = some a → s.inSpace b.part a 8 = true) →
      ∃ t, exec (.genBumpComplete asid) s = .next t ∧ t.gen asid = s.gen asid + 1 ∧ t.bumps = s.bumps.eraseP (fun x => x.asid == asid))

/-- The events of memory requests and fault records (R183, R243, R270, R302, R305, R307, R359): where each may happen, and what it leaves. A request
that has had no effect stores its bytes, or has its data, which wait for their delivery; delivery puts them in the destination registers, or in the
scratchpad, where they count against the barrier; a fault record stands in its queue behind TAIL, which names the next place, unless the queue is
full; a word that gives up traps at its own address, its entry kept, or is dropped where no thread of it is left.
It rests on choices of the model's: log entries 1, 3, 59 and 83. -/
def Obligations.MemoryEventsHappen : Prop :=
  ∀ (s : State) (core : Nat), s.beyond = none →
    let Gives (i : Instr) (t : State) : Prop := t.beyond = none → exec i s = .next t
    let drop (s : State) (id : Nat) : State := s.modCore core (fun c => c.dropWord id)
    (∀ id m, Map.find (s.core core).reqs id = some m → m.left = false → m.issued + Config.strikeWindow ≤ (s.core core).clock.toNat →
      exec (.effectLeavesCore core id) s = .next (s.modCore core (fun c => { c with reqs := Map.insert c.reqs id { m with left := true } }))) ∧
    (∀ id m g w, m.InFlight s core id g w → s.mayPerform core id g m = true → s.coreUp core = true →
      Gives (.memoryRequestArrival core id) (s.replay core id) ∧
      ∀ s1 at_, m.Goes s s1 core g at_ →
        (∀ key, m.spec.kind = .store ∨ m.spec.kind = .stu → m.spec.dests = [] →
          (∀ q, Mask.has m.cov q = true → ∀ run ∈ m.usedRuns q, ∃ p, at_ q run.1 = some p ∧ p.near m.ctx key) →
          ∃ (base : State) (scratch : List (Nat × Byte)) (bad : List Nat),
            exec (.memoryRequestArrival core id) s = .next (drop base id) ∧
            Stored s1 base m.ctx g.part key scratch bad ∧ (∀ x ∈ bad, x ∈ g.badScratch) ∧
            (∀ a, Memory.read base.mem a = (lastByte (m.writes at_) Target.devAddr a).getD (Memory.read s.mem a)) ∧
            ∀ a, Map.get scratch a 0 = (lastByte (m.writes at_) (Target.ownOffset m.ctx) a).getD (Map.get g.scratch a 0)) ∧
        (m.spec.kind = .load ∨ m.spec.kind = .ldu ∨ m.spec.kind = .ld2s → s.deferred = true → m.spec.size ≤ 16 →
          (∀ q, Mask.has m.cov q = true → ∀ run ∈ m.usedRuns q, ∃ p, at_ q run.1 = some p ∧ s1.sound g.part p run.2) →
          ∃ m', exec (.memoryRequestArrival core id) s =
              .next ((drop s1 id).modCore core (fun c => { c with reqs := Map.insert c.reqs id m' })) ∧
            m' = { m with applied := m.cov, performed := true, returns := m'.returns } ∧
            ∀ q, Mask.has m.cov q = true → m'.returns[q].toNat = m.value s at_ q)) ∧
    (∀ id m, Map.find (s.core core).reqs id = some m → m.performed = true → m.spec.kind ≠ .ld2s →
      Gives (.loadDataDelivery core id) ((drop s id).deliver core id m none) ∧
      ∀ w, s.waveOf m.ctx m.wave = some w → w.LaysOk → m.badLanes = 0 → m.spec.dests.Nodup → (∀ d ∈ m.spec.dests, d < 256) →
        m.spec.size ∈ [1, 2, 4, 8, 16] → m.spec.dests.length = max 1 (m.spec.size / 4) → (∀ q : Lane, m.returns[q].toNat < 256 ^ m.spec.size) →
        ∃ f : Wave → Wave, exec (.loadDataDelivery core id) s = .next ((drop s id).modWave m.ctx m.wave f) ∧
          let w' := f w
          w.SameBut w' ∧
          (∀ r q, Mask.has w.alive q = true → r ∉ m.spec.dests ∨ Mask.has m.cov q = false → w'.read r q = w.read r q) ∧
          ∀ (d j : Nat), m.spec.dests[j]? = some d → ∀ q, Mask.has m.cov q = true → Mask.has w.alive q = true →
            w'.read d q = m.wordOf m.returns[q].toNat j) ∧
    (∀ id m g, Map.find (s.core core).reqs id = some m → m.performed = true → m.spec.kind = .ld2s → Map.find s.groups m.ctx = some g →
      Gives (.ld2sDelivery core id) ((drop s id).ld2sLand g.part m m.cov) ∧
      let n := m.spec.size
      let dst (q : Lane) : Nat := m.aux[q].toNat
      (m.badLanes = 0 → (∀ q, Mask.has m.cov q = true → dst q < 2 ^ 30 ∧ dst q + n ≤ g.image.scratch) →
        (∀ q r, Mask.has m.cov q = true → Mask.has m.cov r = true → q ≠ r → dst q + n ≤ dst r ∨ dst r + n ≤ dst q) →
        ∃ f : Group → List (Nat × Byte) × List Nat,
          exec (.ld2sDelivery core id) s = .next (((drop s id).modGroup m.ctx (fun x =>
            { x with scratch := (f x).1, badScratch := (f x).2 })).deliverTx m.ctx m.bar (n * Mask.count m.cov)) ∧
          let scratch := (f g).1
          (∀ q, Mask.has m.cov q = true → ∀ k < n, Map.get scratch (dst q + k) 0 = BitVec.ofNat 8 (m.returns[q].toNat / 256 ^ k)) ∧
          ∀ a, (∀ q, Mask.has m.cov q = true → a < dst q ∨ dst q + n ≤ a) → Map.get scratch a 0 = Map.get g.scratch a 0)) ∧
    (∀ e r, Map.find s.faultRecs e = some r → r.core = core → r.index = none →
      let asd := s.asd r.part r.asid.toNat
      let fq := s.physNat r.part (asd + 24) 8
      let log := s.physNat r.part (asd + 36) 1 % 16
      let head := s.physNat r.part fq 4
      let tail := s.physNat r.part (fq + 4) 4
      let slot := fq + 64 + 32 * (tail % 2 ^ log)
      let full : Prop := (tail + 2 ^ 32 - head) % 2 ^ 32 = 2 ^ log
      let at_ (a : Nat) : Nat := (s.part r.part).place 0 a
      (log = 0 ∨ full → exec (.faultRecord core e) s = .next s) ∧
      (log ≠ 0 → ¬ full → s.inSpace r.part (fq + 4) 4 = true → s.inSpace r.part slot 32 = true →
        ∃ t, exec (.faultRecord core e) s = .next t ∧ t.physNat r.part slot 16 = 0 ∧ t.physNat r.part (slot + 16) 4 = e % 2 ^ 32 ∧
          t.physNat r.part (slot + 20) 1 = r.kind.toNat ∧ t.physNat r.part (slot + 21) 1 = core % 256 ∧
          t.physNat r.part (slot + 22) 2 = r.asid.toNat ∧ t.physNat r.part (slot + 24) 8 = r.va.toNat ∧
          t.physNat r.part (fq + 4) 4 = (tail + 1) % 2 ^ 32 ∧ Map.find t.faultRecs e = some { r with index := some tail } ∧
          ∀ a, (∀ i < 4, a ≠ at_ (fq + 4 + i)) → (∀ i < 32, a ≠ at_ (slot + i)) → Memory.read t.mem a = Memory.read s.mem a)) ∧
    (∀ e m g w cause no a, Map.find (s.core core).log e = some m → m.gaveUp = some (cause, no, a) → Map.find s.groups m.ctx = some g →
      g.waves[m.wave]? = some w →
      (no &&& w.alive = 0 ∨ w.ended = true → s.awaited core e = 0 → exec (.parkedWordGiveUp core e) s = .next (drop s e)) ∧
      (no ≠ 0 → no &&& w.alive = no → w.ended = false → w.halt = .running → g.image.handler ≠ none →
        ∃ t w', exec (.parkedWordGiveUp core e) s = .next t ∧ t.waveOf m.ctx m.wave = some w' ∧
          w'.frame.cause = BitVec.ofNat 32 cause.code ∧ w'.frame.pc = m.pc ∧ w'.faultMask = no ∧
          w'.frame.thread = BitVec.ofNat 32 (Mask.lowest no).val ∧ w'.frame.telem = m.telems[Mask.lowest no] ∧ w'.frame.addr = a ∧
          w'.regs = w.regs ∧ (w'.block.map (fun b => b.entry)) = some (some e) ∧
          Map.find (t.core core).log e = some { m with parked := true }))

/-- The events of copies, the array and the braid (R184, R187, R198, R202, R252, R276, R281, R284, R286, R287, R307, R395–R399): where each may happen,
and what it leaves. A copy or a drain asks for a chunk's reservation, then moves the chunk; an instruction takes effect at its place under its
reservation; an image that is read stands in the shadow plane; a group of an MMAG begins with the swap of the planes; a batch retires with its
drains' OVFL bits; a COLL waits until READYA has reached READY, contributes its bucket piece by piece, and sums its chunk by rank.
It rests on choices of the model's: log entries 1, 3, 32, 33 and 85. -/
def Obligations.EngineEventsHappen : Prop :=
  ∀ (s : State) (core : Nat), s.beyond = none →
    let Gives (i : Instr) (t : State) : Prop := t.beyond = none → exec i s = .next t
    (∀ c, (s.core core).copies.find? (fun x => x.id == c.id) = some c → s.coreUp core = true → s.leads core c = true →
      s.aged core c.issued = true → s.copyMoves core c = true →
      (c.done % 4096 = 0 → s.hasGrant .copy core c.id = false → Gives (.copyChunk core c.id) (s.want .copy core c.id 64)) ∧
      (c.done % 4096 ≠ 0 ∨ s.hasGrant .copy core c.id = true → Gives (.copyChunk core c.id) ((s.copyTurn core c).askCopy core c.id)) ∧
      (∀ g w (dst src : Addr) n, c.done % 4096 = 0 → s.hasGrant .copy core c.id = true → c.kind = .lin dst src true true n → c.bar = none →
        s.deferred = true → Map.find s.groups c.ctx = some g → g.waves[c.wave]? = some w → g.badScratch = [] →
        (∀ o ∈ s.remote, o.2.word ≠ c.id) → g.image.scratch < 2 ^ 30 → dst.toNat + n ≤ g.image.scratch → src.toNat + n ≤ g.image.scratch →
        dst.toNat + n ≤ src.toNat ∨ src.toNat + n ≤ dst.toNat →
        let p := c.done
        let q := min n (p + 4096)
        ∃ t g', exec (.copyChunk core c.id) s = .next t ∧ Map.find t.groups c.ctx = some g' ∧
          (∀ i, p ≤ i → i < q → Map.get g'.scratch (dst.toNat + i) 0 = Map.get g.scratch (src.toNat + i) 0) ∧
          (∀ a, a < dst.toNat + p ∨ dst.toNat + q ≤ a → Map.get g'.scratch a 0 = Map.get g.scratch a 0) ∧
          (t.core core).copies.find? (fun x => x.id == c.id) = if q = n then none else some { c with done := q })) ∧
    (∀ i b, (∀ x ∈ (s.core core).copies, x.id ≠ b.rank) → (s.core core).drainOf b.rank = some (i, b) → s.coreUp core = true →
      s.aged core b.since = true → s.drainMoves b = true →
      (b.midChunk = false → s.hasGrant .drain core b.rank = false → Gives (.copyChunk core b.rank) (s.want .drain core b.rank 64)) ∧
      (b.midChunk = true ∨ s.hasGrant .drain core b.rank = true →
        Gives (.copyChunk core b.rank) ((s.drainTurn core i b).askDrain core b.rank))) ∧
    (∀ (b : DrainBuf) g j a ga key s1, Map.find s.groups b.ctx = some g → b.add = false →
      let fmt := shapeFmt b.shape
      let bx := shapeBox b.shape 0
      let n := drainBytes fmt
      (boxAt b.shape b.coords (j * n)).1 = some a →
      s.spotsAt ⟨core, b.ctx, g, b.tag.toNat⟩ .engineWrite (.mem a) n 8 = (s1, .ok [(.dev ga key, n)]) →
      let v := (convElem fmt b.tile.alpha (b.tile.el (j / bx) (j % bx)) (Map.get b.scales (j % bx) 0x3F800000)).1
      let t := (s.drainElem core b g j).1
      (∀ k < n, Memory.read t.mem (ga + k) = BitVec.ofNat 8 (v / 256 ^ k)) ∧
        ∀ x, x < ga ∨ ga + n ≤ x → Memory.read t.mem x = Memory.read s.mem x) ∧
    (∀ e, s.nextEntry core = some e →
      let began (t : State) (n : Nat) : State :=
        (t.modCore core (fun c => c.setEntry { e with phase := if n = 0 then .occupied else .begun, occ := n })).askDrain core e.id
      let asked := s.hasGrant .matrix core e.id = false ∧ s.hasAsked .matrix core e.id = false
      (∀ t n, s.takeEffect core e = (t, .done n) →
        (n = 0 → Gives (.matrixOrderBegin core) (began t 0)) ∧
        (0 < n → asked → Gives (.matrixOrderBegin core) (s.ask .matrix core e.id (2 * n))) ∧
        (0 < n → s.hasGrant .matrix core e.id = true →
          Gives (.matrixOrderBegin core) (began ((s.useGrant .matrix core e.id).takeEffect core e).1 n))) ∧
      (∀ tile row col bit, e.op = .aflip tile row col bit → tile < 4 → s.voided e = false → (Map.find s.groups e.ctx).isSome = true →
        exec (.matrixOrderBegin core) s = .next (began (s.takeEffect core e).1 0)) ∧
      (∀ a b c d f g h i j k t n, e.op = .mmag a b c d f g h i j k → s.mmagStep core e = (t, .done n) →
        (n = 0 → Gives (.mmagGroupStart core) t) ∧
        (0 < n → asked → Gives (.mmagGroupStart core) (s.ask .matrix core e.id (2 * n))) ∧
        (0 < n → s.hasGrant .matrix core e.id = true → Gives (.mmagGroupStart core) ((s.useGrant .matrix core e.id).mmagStep core e).1))) ∧
    (∀ (e : MatEntry) g fw tile nt kc base pitches dead counts images next i, core < Config.cores → Map.find s.groups e.ctx = some g →
      e.op = .mmag fw tile nt kc base pitches dead counts images next → s.voided e = false → s.mmagUnfit core fw tile counts next = false →
      nextGroup counts next = some i → e.ahead = some i →
      ∃ t occ, s.mmagStep core e = (t, .done occ) ∧ t.beyond = none ∧
        (s.nextEntry core = some e → 0 < occ → s.hasGrant .matrix core e.id = true → ∃ u, exec (.mmagGroupStart core) s = .next u ∧
          (u.core core).tiles = (t.core core).tiles ∧ (u.core core).active = (t.core core).active ∧ (u.core core).queue = (t.core core).queue) ∧
        (t.core core).active = (s.core core).shadow ∧ (t.core core).shadow = (s.core core).active ∧
        (t.core core).queue = (s.core core).queue.map (fun x => if x.id = e.id then
          { e with op := .mmag fw tile nt kc base pitches dead counts images (i + 1), phase := .begun, occ := occ, ahead := none } else x) ∧
        ∀ x : Fin 4, (∀ r, (counts.take i).sum ≤ r → r < (counts.take i).sum + counts[i]?.getD 0 → tile + r / 32 ≠ x.val) →
          (t.core core).tiles[x] = (s.core core).tiles[x]) ∧
    (∀ e g w, (s.core core).queue.find? (fun e => e.op.usesShadow) = some e → s.coreUp core = true → s.arrayUp core = true → e.token = none →
      s.halts e.ctx = false → Map.find s.groups e.ctx = some g → g.waves[e.wave]? = some w → s.voided e = false →
      let by_ : Engine := ⟨core, e.ctx, g, e.tag.toNat⟩
      (∀ fw west nk nn a p sc, e.op = .tld fw west nk nn a p sc →
        Gives (.shadowReady core) (s.tileRead core e) ∧
        ∀ s1 r, s.readPlane by_ e.got ⟨fw, west, nk, nn, a, p.toNat, sc⟩ = (s1, r) → s1.beyond = none →
          match r with
          | .plane x => ∃ t w', exec (.shadowReady core) s = .next t ∧ (t.core core).shadow = { x with idle := (s1.core core).shadow.idle } ∧
              (t.core core).queue = (s1.core core).queue.map (fun y => if y.id = e.id then { e with op := .swap, got := [] } else y) ∧
              t.waveOf e.ctx e.wave = some w' ∧
              (w.block = none → w.slots[e.slot].wait = some (.tile e.id) → w' = w.advance e.slot)
          | .stop (.wait token x) => ∃ t w', exec (.shadowReady core) s = .next t ∧ (∀ y ∈ (t.core core).queue, y.id ≠ e.id) ∧
              t.waveOf e.ctx e.wave = some w' ∧
              (w.block = none → w.slots[e.slot].wait = some (.tile e.id) → w' = w.stallAt e.slot (.fetch token x))
          | .stop (.fail cause x) => w.halt = .running → w.slots[e.slot].wait = some (.tile e.id) → w.block = none → g.image.handler ≠ none →
              (Map.find s1.groups e.ctx = some g) →
              ∃ t w', exec (.shadowReady core) s = .next t ∧ (∀ y ∈ (t.core core).queue, y.id ≠ e.id) ∧ t.waveOf e.ctx e.wave = some w' ∧
                w'.frame.cause = BitVec.ofNat 32 cause.code ∧ w'.frame.pc = w.slots[e.slot].pc ∧ w'.frame.addr = x ∧ w'.faultMask = w.exec e.slot
          | .stop (.peers ps) => exec (.shadowReady core) s = .next (s1.askPeers core e ps)) ∧
      ∀ fw tile nt kc base pitches dead counts images next i, e.op = .mmag fw tile nt kc base pitches dead counts images next →
        s.readsImage core e = true → s.mmagUnfit core fw tile counts next = false → nextGroup counts next = some i → e.ahead ≠ some i →
        ∀ s1 x, s.readPlane by_ e.got (weightAsk fw (images[i]?.getD 0)) = (s1, .plane x) → s1.beyond = none →
          ∃ t, exec (.shadowReady core) s = .next t ∧ (t.core core).shadow = { x with idle := (s1.core core).shadow.idle } ∧
            (t.core core).active = (s1.core core).active ∧
            (t.core core).queue = (s1.core core).queue.map (fun y => if y.id = e.id then { e with ahead := some i, got := [] } else y)) ∧
    (∀ e, (s.core core).queue.find? (fun e => e.phase == .begun) = some e →
      let ended (p : MatPhase) : State := s.modCore core (fun c => c.setEntry { e with phase := p, occ := 0 })
      ((∀ a b c d f g h i j k, e.op ≠ .mmag a b c d f g h i j k) → exec (.occupancyEnd core) s = .next (ended .occupied)) ∧
      (∀ a b c d f g h counts j k, e.op = .mmag a b c d f g h counts j k →
        exec (.occupancyEnd core) s = .next (ended (if (nextGroup counts k).isSome then .queued else .occupied)))) ∧
    (∀ e es, (s.core core).queue = e :: es → e.phase = .occupied → s.deferred = true →
      exec (.matrixComplete core) s = .next (s.modCore core (fun c => c.dropEntry e.id))) ∧
    (∀ buf, s.drainDone core buf = true →
      exec (.drainBufferFree core buf) s = .next (s.modCore core (fun c => { c with buffers := vmod c.buffers buf (fun _ => none) }))) ∧
    (∀ ctx wave g w, Map.find s.groups ctx = some g → g.waves[wave]? = some w → s.mayRetire ctx g wave w = true →
      let b := w.retired + 1
      let flags := Map.get w.drainFlags b.toNat 0
      ∃ f : Group → Group, exec (.batchRetire ctx wave) s = .next (s.modGroup ctx f) ∧
        f g = { g.setWave wave { w with retired := b, drainFlags := Map.erase w.drainFlags b.toNat } with
          ovfl := g.ovfl ||| flags, ovflNow := g.ovflNow ||| flags }) ∧
    (∀ id c, Map.find s.colls id = some c →
      (s.braidMoves id c = true → Gives (.braidReady id) (s.braidTry id)) ∧
      (∀ g s1 bs, s.braidMoves id c = true → c.started = false → c.ready = false → Map.find s.groups c.ctx = some g →
        s.engineRead (c.engine g) c.got (.mem (c.record.extractLsb' 256 64)) 4 = (s1, .ok bs) → s1.beyond = none → s1.deferred = s.deferred →
        2 ^ 31 ≤ (BitVec.ofNat 32 (leNat (bs.map Prod.fst)) - c.record.extractLsb' 352 32 : Word).toNat →
        exec (.braidReady id) s = .next { s1 with colls := Map.insert s1.colls id { c with got := [] } }) ∧
      (∀ g s1 src, Map.find s.groups c.ctx = some g → c.ready = true → c.started = false → s.collRuns id c = true → collComp c.record = false →
        s.engineRead (c.engine g) c.got (.mem (c.record.extractLsb' 0 64)) (4 * collSrc c.record) = (s1, .ok src) →
        ∃ own, s.braidRead id = { s1 with colls := Map.insert s1.colls id { c with started := true, own := own, left := [], got := [] } } ∧
          own.length = collSrc c.record ∧
          ∀ i < collSrc c.record, own[i]? = some (
            if ∃ b ∈ (src.drop (4 * i)).take 4, b.2 = true then none
            else some (BitVec.ofNat 32 (leNat (((src.drop (4 * i)).take 4).map Prod.fst))))) ∧
      (∀ g s1 ga key, s.braidMoves id c = true → s.deferred = true → Map.find s.groups c.ctx = some g → c.ready = true → c.allSent = true →
        c.gathered = true → c.summed = false → c.stores = 0 → collOp c.record = 1 → 0 < collRanks c.record →
        let n := 4 * collChunk c.record
        0 < n → n ≤ 2048 →
        s.spotsAt (c.engine g) .engineWrite (.mem (c.record.extractLsb' 64 64)) n (n + 1) = (s1, .ok [(.dev ga key, n)]) → s1.beyond = none →
        ∃ t, exec (.braidReady id) s = .next t ∧
          Map.find t.colls id = some { c with stores := 1, summed := true, written := (0, n) :: c.written, got := [] } ∧
          (∀ i v, c.chunk[i]? = some (some v) → ∀ j < 4, Memory.read t.mem (ga + 4 * i + j) = BitVec.ofNat 8 (v.toNat / 256 ^ j)) ∧
          ∀ a, a < ga ∨ ga + n ≤ a → Memory.read t.mem a = Memory.read s.mem a) ∧
      (∀ g t c1, s.collPiece id c g = (t, .go c1) →
        let i := c.sent / 4
        let r := i / collChunk c.record
        let first := i % collChunk c.record
        let data := (c.own.drop i).take c.pieceLen
        c1.sent = c.sent + 4 * c.pieceLen ∧
        (r = collRank c.record → c1 = { c with sent := c1.sent, parts := c.parts ++ [(r, first, data)], got := [] }) ∧
        (r ≠ collRank c.record → (∀ y ∈ s.remote, y.1 < s.nextId) → c1 = { c with sent := c1.sent, got := [] } ∧
          ∃ o ∈ t.remote, o.2.coll = some id ∧ o.2.op = .contribution (collCid c.record) (collRank c.record) first data)) ∧
      (collOp c.record ≠ 2 → ∀ i < collChunk c.record,
        let xs := (List.range (collRanks c.record)).map (fun r => (c.partAt r i).getD none)
        c.chunk[i]? = some (if none ∈ xs then none
          else (combined (if collDt c.record = 0 then .fadd else .add) .rne 0 (xs.filterMap (fun x => x))).vals[0]?)) ∧
      (c.started = true → c.summed = true → collOp c.record = 2 ∨ 4 * collSrc c.record ≤ c.sent →
        (∀ o ∈ s.remote, o.2.coll = some id → o.2.open_ = false) →
        (∀ i < 4 * collDue c.record, ∃ x ∈ c.written, x.1 ≤ i ∧ i < x.1 + x.2) →
        exec (.collComplete id) s = .next { s with colls := Map.erase s.colls id }))

/-- The cluster's events (R252, R415, R419, R420, R426–R428, R432): the arbiter grants its first request where the window's charges leave room for it under the
limit, its charges leave after 1,024 clocks, and a request ages by a class; in-field tests fall due, start on an idle cluster and end; the supply sags and
recovers, and the clock ratio and the limit change, each with its event.
It rests on choices of the model's: log entries 1, 6 and 47. -/
def Obligations.ClusterEventsHappen : Prop :=
  ∀ (s : State) (k : Nat), s.beyond = none →
    let c := s.cluster k
    (∀ r, firstRequest c.clock c.waiting = some r →
      ((c.charges.filter (fun x => decide (c.clock < x.1 + 1024))).map Prod.snd).sum + r.charge ≤
        (if c.hot then max 2048 (c.pwrlim.toNat / 2) else c.pwrlim.toNat) →
      ∃ t, exec (.reservationGrant k) s = .next t ∧ (k < Config.clusters →
        (t.cluster k).waiting = c.waiting.erase r ∧
        (t.cluster k).charges = c.charges.filter (fun x => decide (c.clock < x.1 + 1024)) ++ [(c.clock, r.charge)] ∧
        (r.cls ≠ .vector → (t.cluster k).granted = c.granted ++ [r])) ∧
        (r.cls = .vector → r.core < Config.cores → r.part < 4 → vget (t.core r.core).passes r.part 0 = vget (s.core r.core).passes r.part 0 + 256)) ∧
    (∀ x xs, c.charges = x :: xs → exec (.chargeExpiry k) s = .next (s.modCluster k (fun c =>
      { c with clock := max c.clock (x.1 + 1024), charges := c.charges.filter (fun y => decide (max c.clock (x.1 + 1024) < y.1 + 1024)) }))) ∧
    (∀ r, c.waiting.find? (fun r => decide (r.up < r.cls.rank)) = some r → exec (.arbiterAging k) s = .next (s.modCluster k (fun c =>
      { c with clock := max c.clock (r.since + 256 * (r.up + 1)), waiting := c.waiting.map (fun x => if x = r then { x with up := x.up + 1 } else x) }))) ∧
    (k < Config.clusters → c.fieldTest = .none → c.lastTest + c.testint.toNat * 3600000000000 ≤ s.now →
      exec (.inFieldTestDue k) s = .next (s.modCluster k (fun x => { x with fieldTest := .due (x.lastTest + x.testint.toNat * 3600000000000) }))) ∧
    (∀ since, c.fieldTest = .due since →
      ((∀ g ∈ s.groups, clusterOf g.2.core ≠ k) → exec (.inFieldTestStart k) s = .next (s.modCluster k (fun x => { x with fieldTest := .run false 0 }))) ∧
      ((∃ g ∈ s.groups, clusterOf g.2.core = k) → c.idleOnly = false → since + c.grace.toNat * 1000000000 ≤ s.now →
        (∀ g ∈ s.groups, clusterOf g.2.core = k → g.2.mayPause = true) →
        exec (.inFieldTestStart k) s = .next (s.modCluster k (fun x => { x with fieldTest := .run true 0 })))) ∧
    (c.fieldTest.stops = true → k < Config.clusters →
      (∃ t, t.beyond = none → exec (.inFieldTestEnd k) s = .next t) ∧
      (s.deferred = true → (∀ o ∈ s.remote, o.2.status ≠ .queued) →
        ∃ t, exec (.inFieldTestEnd k) s = .next t ∧ (t.cluster k).fieldTest = .none ∧ (t.cluster k).lastTest = s.now)) ∧
    (k < Config.clusters → ∀ deep, exec (.supplySag k deep) s = .next ((s.modCluster k (fun x =>
      { x with sagging := true, stretch := max x.stretch (if deep then 8 else 1) })).cast k { cls := 0x07, cause := 2 })) ∧
    (c.sagging = true → exec (.supplyRecovery k) s = .next (s.modCluster k (fun x => { x with sagging := false }))) ∧
    (c.sagging = false → 0 < c.stretch →
      exec (.sagRecoveryStep k) s = .next (s.modCluster k (fun x => { x with stretch := x.stretch - 1, clock := x.clock + 64 }))) ∧
    (k < Config.clusters → c.hot = false →
      exec (.limitHalve k) s = .next ((s.modCluster k (fun x => { x with hot := true })).cast k { cls := 0x07, cause := 1 })) ∧
    (c.hot = true → exec (.limitRestore k) s = .next ((s.modCluster k (fun x => { x with hot := false })).cast k { cls := 0x07, cause := 1 })) ∧
    ∀ (core : Nat) (r : BitVec 4), core < Config.cores →
      let set (r : BitVec 4) : State := (s.modCore core (fun x => { x with ratio := r })).cast (clusterOf core)
        { cls := 0x07, cause := 0, core := core, data := r.setWidth 32 }
      (4 ≤ r.toNat → r.toNat ≤ 8 → (∀ t, (s.core core).ratioAt = some t → t + 100000 ≤ s.now) →
        exec (.ratioChange core r) s = .next ((set r).modCore core (fun x => { x with ratioAt := some s.now }))) ∧
      (4 < (s.core core).ratio.toNat → (∀ t, (s.core core).thermalAt = some t → t + 100000 ≤ s.now) →
        exec (.thermalStep core) s = .next ((set ((s.core core).ratio - 1)).modCore core (fun x => { x with thermalAt := some s.now })))

/-- What the host writes (R324, R360, R362, R368, R369, R371, R376, R425, R432): a TDI in RUN turns an untrusted write away; a doorbell rings a known node once
and makes the partition look again; ASDBASE keeps its bits 51–6; the management registers take their fields; BAR 4 reads
and writes the partition's memory.
It rests on a choice of the model's: log entry 38. -/
def Obligations.HostWritesHappen : Prop :=
  ∀ (s : State) (part : BitVec 5) (v : BitVec 64) (trusted : Bool), s.beyond = none →
    let p := s.part part.toNat
    let k := s.clusterSel.toNat
    (s.devState = .running → p.tdi = .run → trusted = false → ∀ i,
      i ∈ [Instr.doorbell part v trusted, .genreq part v trusted, .faultdbWrite part v trusted, .registerWrite (.partition part) 8 (some v) trusted,
        .registerWrite (.partition part) 8 none trusted, .hostBar4Access part 0 none 8 trusted] → exec i s = .next (s.send .unsupported)) ∧
    (s.devState ≠ .running → ∀ i,
      i ∈ [Instr.doorbell part v trusted, .genreq part v trusted, .faultdbWrite part v trusted, .registerWrite (.partition part) 8 (some v) trusted,
        .registerWrite (.partition part) 8 none trusted, .hostBar4Access part 0 none 8 trusted] → exec i s = .next s) ∧
    (s.devState = .running → p.tdi ≠ .run ∨ trusted = true →
      (p.tdi = .unlocked ∨ p.tdi = .run → p.pstat = 0 ∨ p.pstat = 2 → v.toNat < 2 ^ 50 →
        let node := v.toNat * 128
        ((s.path part.toNat node).isSome = true → exec (.doorbell part v trusted) s = .next (s.modPart part.toNat (fun x =>
          { x with bells := if x.bells.any (fun b => b.1 == node) then x.bells else x.bells ++ [(node, s.now)], idle := false, pstat := 0 }))) ∧
        (s.path part.toNat node = none →
          exec (.doorbell part v trusted) s = .next (s.castPart part.toNat { cls := 0x0A, cause := 0x8B, addr := v }))) ∧
      (p.pstat ≠ 1 → s.asidActive part.toNat (v.toNat % 2 ^ 16) = true → s.deferred = true →
        exec (.genreq part v trusted) s = .next { s with bumps := s.bumps ++ [⟨v.toNat % 2 ^ 16, part.toNat, none, none⟩] }) ∧
      (let token := v.toNat % 2 ^ 32
       let t := s.replyHeld (s.serviceReply part.toNat token) token
       p.pstat ≠ 1 → (t.beyond = none → exec (.faultdbWrite part v trusted) s = .next t) ∧
        ∀ r i, Map.find s.faultRecs token = some r → r.index = some i → r.part = part.toNat → s.recordStatus r i = 1 → s.deferred = true →
          (∀ m ∈ (s.core r.core).log, token ∉ m.2.tokens) → (∀ o ∈ s.remote, o.2.status ≠ .queued) →
          exec (.faultdbWrite part v trusted) s = .next (({ s with faultRecs := Map.erase s.faultRecs token }.endWaits token).modCore r.core
            (fun c => c.endWaits token))) ∧
      exec (.registerWrite (.partition part) 0x0008 (some v) trusted) s =
          .next (s.modPart part.toNat (fun x => if x.tdi = .locked ∨ x.tdi = .run then x else { x with asdBase := v &&& 0x000FFFFFFFFFFFC0 })) ∧
      exec (.registerWrite (.partition part) 0x0008 none trusted) s = .next (s.send (.register p.asdBase)) ∧
      exec (.registerWrite (.partition part) 0x0020 none trusted) s = .next (s.send (.register (p.pstat.setWidth 64))) ∧
      (∀ addr size, s.inSpace part.toNat addr size = true →
        ∃ bytes bad, exec (.hostBar4Access part addr none size trusted) s = .next (s.send (.hostRead bytes bad)) ∧
          (bad = true → bytes = []) ∧ (p.pstat = 1 → bad = true) ∧
          (p.pstat ≠ 1 → (∀ i < size, s.clean part.toNat (p.place 0 (addr + i)) p.primary.toNat = true) →
            bad = false ∧ bytes = (List.range size).map (fun i => Memory.read s.mem (p.place 0 (addr + i))))) ∧
      (∀ addr bs, s.inSpace part.toNat addr bs.length = true → p.tdi ≠ .locked → p.pstat ≠ 1 →
        ∃ t, exec (.hostBar4Access part addr (some bs) 0 trusted) s = .next t ∧
          (∀ i < bs.length, Memory.read t.mem (p.place 0 (addr + i)) = bs[i]?.getD 0) ∧
          ∀ a, (∀ i < bs.length, a ≠ p.place 0 (addr + i)) → Memory.read t.mem a = Memory.read s.mem a)) ∧
    exec (.registerWrite .management 0x1008 (some v) trusted) s = .next { s with clusterSel := v.extractLsb' 0 5 } ∧
    (let c := s.cluster k
     let reads (off : Nat) (x : BitVec 64) : Prop := exec (.registerWrite .management off none trusted) s = .next (s.send (.register x))
     reads 0x1008 (s.clusterSel.setWidth 64) ∧ reads 0x1010 (c.pwrlim.setWidth 64) ∧ reads 0x1020 c.castHead ∧
     ∃ x, reads 0x1000 x ∧ x.extractLsb' 32 32 = s.epoch ∧
      x.extractLsb' 0 2 = (match s.devState with | .booting => 0 | .running => 1 | .fatal => 2 | .recovery => 3)) ∧
    exec (.pwrlimWrite v) s = .next ((s.modCluster k (fun c => { c with
      pwrlim := BitVec.ofNat 16 (max 4096 (v.toNat % 2 ^ 16)) })).cast k { cls := 0x07, cause := 1 }) ∧
    exec (.testpolWrite v) s = .next (s.modCluster k (fun c => { c with
      grace := v.extractLsb' 16 16, testint := BitVec.ofNat 8 (max 1 (v.toNat / 2 ^ 8 % 2 ^ 8)), idleOnly := v.getLsbD 0 })) ∧
    (v.getLsbD 0 = true → exec (.thaw v) s = .next (s.modCluster k (fun c => { c with frozen := false })))

/-- The distributor's events (R224, R326–R338, R388): where each may happen, and what it leaves. At a decision point the pending gangs are
ranked by effective priority, and the first that fits is placed, its groups on cores of the partition under CTXIDs that no group has; one that does not
fit stops gangs of lower priority, if they suffice. A group's end frees it and counts it; a launch's end writes its completion word; a graph's child starts
as a launch of its own. A group that was the last a stop waited for leaves the others saved.
It rests on choices of the model's: log entries 1, 24, 80, 88 and 89. -/
def Obligations.DistributorEventsHappen : Prop :=
  ∀ (s : State) (part : BitVec 5) (n : Nat), s.beyond = none →
    let p := part.toNat
    let Gives (i : Instr) (t : State) : Prop := t.beyond = none → exec i s = .next t
    (s.partRuns p = true → (s.part p).idle = false → (∀ x ∈ s.gangs, x.2.ready = false → ∀ l, Map.find s.launches x.2.launch = some l → l.part ≠ p) →
      let s1 := ((s.takeBells p).startAll p).modPart p (fun x => { x with idle := true })
      let stopping := (s1.gangs.map Prod.fst).filter s1.gangStopping
      let victims (w : Work × Nat) := s1.chooseVictims w.1 stopping [] ((s1.victims p w.2).filter (fun v => !s1.gangStopping v))
      (s1.work p).Pairwise (fun a b => b.2 ≤ a.2) ∧
      (∀ w ∈ s1.work p, ∃ x ∈ s1.launches, x.2.part = p ∧ w.2 = min 15 (x.2.prio + x.2.aged)) ∧
      (∀ x ∈ s1.launches, x.2.part = p → x.2.closed = false → x.2.placed < x.2.total →
        (Work.launch x.1, min 15 (x.2.prio + x.2.aged)) ∈ s1.work p) ∧
      (s1.beyond = none → (∀ w ∈ s1.work p, s1.place w.1 = none ∧ victims w = none) → exec (.decisionPoint part) s = .next s1) ∧
      ∀ done w rest, s1.work p = done ++ w :: rest → (∀ x ∈ done, s1.place x.1 = none ∧ victims x = none) →
        (∀ t, s1.place w.1 = some t → Gives (.decisionPoint part) t ∧
          ∀ id l, w.1 = .launch id → Map.find s1.launches id = some l →
            (s1.beyond = none → exec (.decisionPoint part) s = .next t) ∧
            let m := gangCount l.image (l.total - l.placed)
            (Map.find t.launches id).map (fun l => l.placed) = some (l.placed + m) ∧
            ∃ x, Map.find t.gangs s1.nextId = some x ∧ x.launch = id ∧ x.first = l.placed ∧ x.ready = false ∧ x.members.length = m ∧
              ∀ c ∈ x.members, Map.find s1.groups c = none ∧ ∃ g, Map.find t.groups c = some g ∧ g.launch = id ∧ g.gang = s1.nextId ∧
                g.part = l.part ∧ g.core ∈ (s1.part l.part).coreList) ∧
        (∀ vs, s1.place w.1 = none → victims w = some vs →
          (s1.beyond = none → exec (.decisionPoint part) s = .next (vs.foldl State.stopGang s1)) ∧ ((s1.without (stopping ++ vs)).place w.1).isSome = true ∧
          ∀ v ∈ vs, (∃ x ∈ s1.gangs, x.1 = v ∧ ∃ l, Map.find s1.launches x.2.launch = some l ∧ l.part = p ∧ min 15 (l.prio + l.aged) < w.2) ∧
            ∀ x, Map.find s1.gangs v = some x → ∀ c ∈ x.members, ∀ g, Map.find s1.groups c = some g →
              ∃ g', Map.find (vs.foldl State.stopGang s1).groups c = some g' ∧ g'.stop ≠ none)) ∧
    (∀ x l, Map.find s.gangs n = some x → x.ready = false → Map.find s.launches x.launch = some l → l.part = p →
      exec (.gangPlaced part n) s = .next (((s.modGang n (fun x => { x with ready := true })).takeControlCtx).modPart p (fun x => { x with idle := false }))) ∧
    (∀ l, Map.find s.launches n = some l →
      (l.placed < l.total ∨ (∃ x ∈ s.saved, x.2.gang.launch = n) → l.visible + 4000000 * (l.aged + 1) ≤ s.now → l.prio + l.aged < 15 →
        exec (.priorityAging n) s = .next { s with launches := Map.modify s.launches n (fun l => { l with aged := l.aged + 1 }) }) ∧
      (s.atEnd n l = true → l.token = none →
        Gives (.launchComplete n) (s.complete n l true) ∧
        (recDone l.record = 0 → Gives (.launchComplete n) (s.finish n l) ∧
          (l.outcome.1 ≠ 2 → s.inSpace l.part (l.node + 64) 16 = true → exec (.launchComplete n) s = .next (s.finish n l))) ∧
        (∀ leaf ga key, recDone l.record ≠ 0 → canonical (recDone l.record) ≠ none → (recDone l.record).toNat % 8 = 0 →
          s.walk l.part l.asid.toNat ((recDone l.record).toNat % 2 ^ 57) = .ok leaf →
          s.granted l.part leaf .write 0 ((recDone l.record).toNat % 2 ^ 57) = some (.dev ga key) →
          ∃ u : State, Gives (.launchComplete n) (u.finish n l) ∧ ∀ a, Memory.read u.mem a =
            if ga ≤ a ∧ a < ga + 8 then BitVec.ofNat 8 ((recTag l.record + l.outcome.1 * 2 ^ 32 + l.outcome.2 * 2 ^ 40) / 256 ^ (a - ga)) else Memory.read s.mem a) ∧
        (l.outcome.1 ≠ 2 → Map.find (s.finish n l).launches n = none ∧ ∀ g i x, l.parent = some (g, i) → g ≠ n → Map.find s.launches g = some x →
          Map.find (s.finish n l).launches g = some { x with results := x.results ++ [(i, l.outcome.1, l.outcome.2)] })) ∧
      (∀ x, x ∈ l.kids → l.kids.find? (fun k => k.1 == x.1) = some x → l.isGraph = true → s.childFree l x = true → n ≠ s.nextId →
        ∃ t y, Gives (.graphChildStart n x.1) t ∧ Map.find t.launches n = some y ∧ y.started = l.started ++ [x.1] ∧
          let c := s.childLaunch n l x
          c.node = x.2.1 ∧ c.parent = some (n, x.1) ∧ c.visible = l.visible ∧ c.aged = l.aged ∧
          ∀ i, c.isGraph = false → s.asidActive c.part c.asid.toNat = true → s.checkGrid c = .ok i →
            (s.inSpace c.part (c.node + 64) 16 = true → exec (.graphChildStart n x.1) s = .next t) ∧
            Map.find t.launches s.nextId = some { c with image := i, total := recGroups c.record })) ∧
    (∀ g, Map.find s.groups n = some g →
      let savedIn (t : State) (c : Nat) : Prop := ∃ y x, Map.find t.groups c = some y ∧ y.stop = some x ∧ x.saved ≠ none
      (s.quiet n g = true →
        ∃ t, Gives (.workGroupEnd n) t ∧ ((∀ y ∈ s.groups, y.2.stop = none) → exec (.workGroupEnd n) s = .next t) ∧ Map.find t.groups n = none ∧ Map.find t.ctxEnded n = some s.now ∧ (∀ o ∈ t.remote, o.2.ctx ≠ n) ∧
          (g.part < 32 → (t.part g.part).idle = false) ∧
          (∀ l, Map.find s.launches g.launch = some l → Map.find t.launches g.launch = some { l with ended := l.ended + 1 }) ∧
          ∀ x, Map.find s.gangs g.gang = some x → (∀ c ∈ x.members, c ≠ n → ∃ y, Map.find s.groups c = some y ∧ y.stopped = true) →
            ∀ c ∈ x.members, c ≠ n → savedIn t c) ∧
      (∀ cls x, g.stop = some x → x.waiting = false → cls ∉ x.acked → s.mayAck n g cls = true → s.coreUp g.core = true →
        let acked := s.modGroup n (fun g => { g with stop := g.stop.map (fun x => { x with acked := cls :: x.acked }) })
        ∀ y, Map.find s.gangs g.gang = some y → n ∈ y.members →
          ((∃ c ∈ y.members, ∀ z, Map.find acked.groups c = some z → z.stopped = false) → exec (.engineStopAck n cls) s = .next acked) ∧
          ((∀ c ∈ y.members, ∃ z, Map.find acked.groups c = some z ∧ z.stopped = true) →
            ∃ t, Gives (.engineStopAck n cls) t ∧ ∀ c ∈ y.members, savedIn t c)) ∧
      (∀ t, g.held = some t → t + 1000 * g.budget ≤ s.now →
        exec (.preemptBudgetExpiry n) s = .next ((s.modGroup n (fun g =>
          { g with held := none, stop := g.stop.map (fun x => if x.waiting then ⟨false, [], s.now, none⟩ else x) })).castGroup n g { cls := 0x08, cause := 1 })) ∧
      (∀ x, g.stop = some x → x.waiting = false → x.since + 20000000 ≤ s.now →
        ∃ t, Gives (.remoteStopTimeout n) t ∧
          ((∀ o ∈ s.remote, Map.find s.remote o.1 = some o.2 ∧ o.2.cover = none) →
            exec (.remoteStopTimeout n) s = .next t ∧ t = { s with remote := t.remote } ∧ ∀ o ∈ s.remote, Map.find t.remote o.1 = some
              (if o.2.ctx = n ∧ o.2.open_ = true ∧ opWrites o.2.op = true then { o.2 with status := .indeterminate } else o.2)))) ∧
    (∀ id x, s.gangs = [(id, x)] → s.gangSaved x = true → (∀ c ∈ x.members, ∀ g, Map.find s.groups c = some g → g.part = p) →
      ∃ t, exec (.preemptionComplete part) s = .next t ∧ t.gangs = [] ∧ ∃ y, Map.find t.saved id = some ⟨x, y⟩ ∧
        (x.members.Nodup → y.map (fun g => g.ctx) = x.members ∧ ∀ c ∈ x.members, Map.find t.groups c = none)) ∧
    (∀ t, Map.find s.ctxEnded n = some t → t + 1000000000 ≤ s.now →
      exec (.ctxidReuseDelayEnd n) s = .next { s with
        ctxEnded := Map.erase s.ctxEnded n, parts := s.parts.map (fun p => { p with idle := p.idle && p.clusters == 0 }) })

/-- The fabric's events (R379, R382–R393): a late frame and one that fails its seal are dropped; an owner performs an admitted request once, its result standing
in the cleat, and answers it; it answers a wrong epoch, a serial it has and one below its floor without performing it; data answers go out by their
port, the others in five slices. A requester sends again at its timeout under the same serial and gives up at 1 s; floors rise and entries retire; links
step, retrain and send again.
It rests on choices of the model's: log entries 27, 41, 42, 43, 85 and 95. -/
def Obligations.FabricEventsHappen : Prop :=
  ∀ (s : State) (port : Nat), s.beyond = none →
    let Gives (i : Instr) (t : State) : Prop := t.beyond = none → exec i s = .next t
    let ready (q : Nat) : Prop := (s.port q).up = true ∧ (s.port q).retraining = none
    let fresh (f : Seal) : Prop := s.now ≤ f.sentAt + 10000000
    (∀ req, s.devState = .running → port < 12 → ¬ fresh req.frame → exec (.fabricRequest port req) s = .next s) ∧
    (∀ (req : FabricReq) v b, ready port →
      ∃ f, (s.replyTo port req (.done v b)).sent = .reply port req.pair req.serial (.done v b) s.epoch f :: s.sent) ∧
    (∀ (req : FabricReq) a, a ∈ [FabricAnswer.expired, .busy, .epoch, .denied] → (∀ i < 5, ready i) →
      ∃ f, (s.replyTo port req a).sent =
        ((List.range 5).map (fun i => Sent.slice i (.reply port req.pair req.serial a s.epoch f))).reverse ++ s.sent) ∧
    (∀ req, s.devState = .running → port < 12 → fresh req.frame → s.entryFor req = none →
      (req.epoch ≠ s.epoch → exec (.fabricRequest port req) s = .next (s.replyTo port req .epoch)) ∧
      (∀ n e, req.epoch = s.epoch → req.serial = some n →
        let s1 := s.modPort port (fun p => p.hear req.pair req.wm s.now)
        ((s1.port port).entryOf req.pair n = some e → exec (.fabricRequest port req) s = .next (s1.replyTo port req (.done (e.result.setWidth 128) e.bad))) ∧
        (∀ r, (s1.port port).entryOf req.pair n = none → (s1.port port).pairOf req.pair = some r → precedes n r.floor = true →
          exec (.fabricRequest port req) s = .next (s1.replyTo port req .expired)) ∧
        ((s1.port port).entryOf req.pair n = none → (∀ r, (s1.port port).pairOf req.pair = some r → precedes n r.floor = false) →
          exec (.fabricRequest port req) s = .next (s1.replyTo port req .denied)))) ∧
    (∀ req w e k, s.devState = .running → port < 12 → fresh req.frame → s.entryFor req = some (w, e) →
      s.linkKey (some req.tpart.toNat) w false = some k →
      (req.frame.genuine = false ∨ req.frame.index ≠ k.index ∨ req.frame.counter ∈ k.seen ∨ req.frame.counter + 4096 < k.counter →
        exec (.fabricRequest port req) s = .next (s.modLinkKey (some req.tpart.toNat) w false (fun k => { k with discarded := k.discarded + 1 }))) ∧
      (req.frame.genuine = true → req.frame.index = k.index → req.frame.counter ∉ k.seen → k.counter ≤ req.frame.counter + 4096 → req.epoch = s.epoch →
        let s1 := (s.modLinkKey (some req.tpart.toNat) w false (fun k => k.accept req.frame.counter)).modPort port (fun p => p.hear req.pair req.wm s.now)
        let q := s.part req.tpart.toNat
        let key := (e.extractLsb' 54 6).toNat
        let at_ := q.place 0 req.addr.toNat
        let may (bit size : Nat) : Prop :=
          s.inSpace req.tpart.toNat req.addr.toNat size = true ∧ e.getLsbD bit = true ∧ q.ownsKey key = true ∧ q.pstat ≠ 1
        let clean (size : Nat) : Prop := ∀ i < size, s.clean req.tpart.toNat (at_ + i) key = true
        let old (size : Nat) : Nat := leNat (Memory.readBytes s.mem at_ size)
        (∀ size, req.serial = none → req.op = .load size → may 62 size → clean size →
          exec (.fabricRequest port req) s = .next (s1.replyTo port req (.done (BitVec.ofNat 128 (old size)) false))) ∧
        (∀ n, req.serial = some n → (s1.port port).entryOf req.pair n = none →
          (∀ r, (s1.port port).pairOf req.pair = some r → precedes n r.floor = false) → (s1.port port).cleat.length < Config.cleatEntries →
          let done (kind : Nat) (v : BitVec 64) (u : State) : State := u.modPort port (fun p =>
            { p with cleat := p.cleat ++ [⟨n, req.pair, kind, BitVec.ofNat 32 (s.now / 1000), v, req.addr, false⟩] })
          (∀ size data mask, req.op = .store size data mask false → may 61 size →
            ∃ u, exec (.fabricRequest port req) s = .next ((done 0 0 u).replyTo port req (.done 0 false)) ∧
              ∀ a, Memory.read u.mem a = if at_ ≤ a ∧ a < at_ + size ∧ mask.getLsbD (a - at_) = true then data.extractLsb' (8 * (a - at_)) 8
                else Memory.read s.mem a) ∧
          (∀ aop wide data kind, (kind = 1 ∧ req.op = .atomic aop wide data) ∨ (kind = 2 ∧ req.op = .red aop wide data) →
            let size := if wide then 8 else 4
            may 60 size → clean size → data.toNat < 2 ^ (8 * size) →
            ∃ u, exec (.fabricRequest port req) s =
                .next ((done kind (BitVec.ofNat 64 (old size)) u).replyTo port req (.done (BitVec.ofNat 128 (old size)) false)) ∧
              ∀ a, Memory.read u.mem a = if at_ ≤ a ∧ a < at_ + size then BitVec.ofNat 8 (rmw aop (8 * size) (old size) data.toNat / 256 ^ (a - at_))
                else Memory.read s.mem a)))) ∧
    (∀ rep o part, Map.find s.remote rep.op = some o → s.opPart o = some part → o.ctx = rep.ctx → o.status = .waiting → s.devState = .running → fresh rep.frame →
      (if repCarries rep then s.linkKey (some part) o.window false else s.linkKey none ((s.peer part o.window).extractLsb' 32 12).toNat false) = none →
      Gives (.fabricReply rep) (s.answered rep o part).sendHeld ∧
      (o.cover = none → (∀ x ∈ s.remote, x.2.status ≠ .queued) →
        let failed (st : RemoteState) : State := { s with remote := Map.insert s.remote rep.op { o with status := st } }
        let late : Prop := o.firstSent + 1000000000 ≤ s.now
        (rep.answer = .denied → exec (.fabricReply rep) s = .next (failed .denied)) ∧
        (rep.answer = .expired ∨ (rep.answer = .busy ∧ late) ∨ (rep.answer = .epoch ∧ 1 < o.sends ∧ opWrites o.op = true) ∨
            (opWrites o.op = true ∧ rep.epoch ≠ o.epoch ∧ ∃ v b, rep.answer = .done v b) →
          exec (.fabricReply rep) s = .next (failed .indeterminate)) ∧
        (rep.answer = .busy → ¬ late → exec (.fabricReply rep) s = .next (s.transmit rep.op)) ∧
        (∀ v b, rep.answer = .done v b → rep.epoch = o.epoch → Map.find (s.core o.core).reqs o.word = none → Map.find (s.core o.core).log o.word = none →
          exec (.fabricReply rep) s = .next { s with remote := Map.erase s.remote rep.op }))) ∧
    (∀ op o part, Map.find s.remote op = some o → s.opPart o = some part → ready (Config.portFor op % 12) →
      ∃ dev peer req, (s.transmit op).sent = .request op dev peer req :: s.sent ∧ req.serial = o.serial ∧ req.op = o.op ∧ req.addr = o.addr ∧
        req.epoch = (s.peer part o.window).extractLsb' 0 32 ∧ req.wm = s.watermark o.ctx ∧ req.frame.sentAt = s.now) ∧
    (∀ op o, Map.find s.remote op = some o → o.status = .waiting → s.opActs o = true →
      (o.lastSent + o.interval ≤ s.now → s.now < o.firstSent + 1000000000 →
        exec (.retransmitTimeout op) s =
          .next ({ s with remote := Map.insert s.remote op { o with interval := min (2 * o.interval) 1600000 } }.transmit op)) ∧
      (o.firstSent + 1000000000 ≤ s.now → Gives (.operationAgeExpiry op) (s.failOp op o .indeterminate).sendHeld ∧
        (o.cover = none → (∀ x ∈ s.remote, x.2.status ≠ .queued) →
          exec (.operationAgeExpiry op) s = .next { s with remote := Map.insert s.remote op { o with status := .indeterminate } }))) ∧
    (∀ pair n e, (s.port port).entryOf pair n = some e →
      (20000 < (BitVec.ofNat 32 (s.now / 1000) - e.stamp).toNat → exec (.cleatEntryAge port pair n) s = .next (s.tell pair.qdev (.query port pair))) ∧
      (∀ r, (s.port port).pairOf pair = some r → r.lastHeard + 1000000000 ≤ s.now → port < 12 →
        ∃ t, exec (.cleatAbandon port pair n) s = .next t ∧ (t.port port).entryOf pair n = none)) ∧
    (∀ dev ctx f, s.devState = .running → fresh f → s.linkKey none dev.toNat false = none →
      exec (.watermarkQuery ⟨dev, ctx, f⟩ port) s = .next (if s.knowsCtx ctx then s.tell dev (.watermark ctx port (s.watermark ctx)) else s)) ∧
    (∀ pair wm f r, s.devState = .running → fresh f → s.linkKey none pair.qdev.toNat false = none → (s.port port).pairOf pair = some r → port < 12 →
      ∃ t, exec (.watermarkAnswer port pair ⟨wm, f⟩) s = .next t ∧
        ∃ r', (t.port port).pairOf pair = some r' ∧ r'.lastHeard = s.now ∧ r'.floor = (if precedes r.floor wm then wm else r.floor) ∧
          ∀ e ∈ (t.port port).cleat, e.pair = pair → precedes e.serial r'.floor = false) ∧
    (∀ pair r, (s.port port).pairOf pair = some r → (∀ e ∈ (s.port port).cleat, e.pair ≠ pair) → r.lastHeard + 1000000000 ≤ s.now →
      (∀ t, r.lastAbandon = some t → t + 1000000000 ≤ s.now) →
      exec (.pairForget port pair) s = .next (s.modPort port (fun p => { p with pairs := p.pairs.filter (fun r => r.pair != pair) }))) ∧
    (∀ lane l, port ≤ 12 → (s.port port).lanes[lane]? = some l → l.retired = false →
      let again : State := match (s.port port).replay with
        | [] => s
        | x :: _ => { s with sent := .flit port x.1 x.2 :: s.sent }
      exec (.flitCrcFail port lane) s = .next ((again.modPort port (fun p =>
        { p with lanes := p.lanes.modify lane (fun l => { l with lost := l.lost + 1 }) })).startTest (laneUnit port lane) none)) ∧
    (port ≤ 12 → 112 < (s.port port).rate → ∃ t, exec (.rateStepDown port) s = .next t ∧
      (t.port port).rate = (if (s.port port).rate = 224 then 168 else 112) ∧ (t.port port).retraining = some s.now) ∧
    (port ≤ 12 → (s.port port).passed = true → (s.port port).rate < 224 → ∃ t, exec (.rateStepUp port) s = .next t ∧
      (t.port port).rate = (if (s.port port).rate = 112 then 168 else 224) ∧ (t.port port).retraining = some s.now) ∧
    (port < 12 → (s.port port).retraining ≠ none → (s.port port).up = true → ∃ t, exec (.laneRetrainEnd port) s = .next t ∧
      t.sent = (s.port port).held.reverse ++ s.sent ∧ (t.port port).retraining = none ∧ (t.port port).held = []) ∧
    (∀ msg (missing : List Nat) x at_, Map.find s.sprays msg = some (x, at_) →
      let lost := (List.range 5).countP (fun i => missing.contains i)
      (lost < 2 → exec (.sprayResend ⟨msg, missing⟩) s = .next { s with sprays := Map.erase s.sprays msg }) ∧
      (2 ≤ lost → at_ + 20000 ≤ s.now → (∀ i < 5, ready i) →
        ∃ t, exec (.sprayResend ⟨msg, missing⟩) s = .next t ∧ Map.find t.sprays msg = some (x, s.now) ∧
          t.sent = ((List.range 5).map (fun i => Sent.slice i x)).reverse ++ s.sent)) ∧
    (∀ (part : Option (BitVec 5)) (window : BitVec 12) out k, s.linkKey (part.map BitVec.toNat) window.toNat out = some k →
      exec (.linkKeyUpdate part window out) s = .next (s.modLinkKey (part.map BitVec.toNat) window.toNat out (fun k =>
        { k with index := k.index + 1, counter := 0, seen := [] })))

/-- The security responder (R367, R371–R374): a request of SPDM to the device or to a TDI is answered where the connection has come far enough and with an
error elsewhere, and by none where the firmware does not run; a session begins, finishes and ends; inside a finished session TDISP moves the TDI along
its states; a configuration of a TDI that is not unlocked is an error; a reset stops the partition's groups, starts its cores' clocks anew and scrubs its
memory, and of a TDI that STOP_INTERFACE has asked to leave ERROR it ends in CONFIG_UNLOCKED.
It rests on choices of the model's: log entries 17, 38, 40, 44 and 74. -/
def Obligations.SecurityEventsHappen : Prop :=
  ∀ (s : State) (who : Responder) (tdi : BitVec 5) (n : Nat), s.beyond = none →
    let p := s.part tdi.toNat
    let runs : Prop := s.devState = .running ∨ s.devState = .fatal
    let far := match s.spdmOf who with
      | .start => 0
      | .version => 1
      | .capabilities => 2
      | .algorithms => 3
    let session (who : Responder) : Option Session := Map.find (s.sessionsOf who) n
    let say (s : State) (who : Responder) (what : Nat) (body : List Nat) : State := { s with sent := .spdm who what body :: s.sent }
    let At (i : Instr) (need : Nat) (t : State) : Prop := exec i s = .next (if need ≤ far then t else say s who 0 [])
    let moved (x : Spdm) : State := match who with
      | .device => { s with spdm := x }
      | .tdi p => s.modPart p.toNat (fun q => { q with spdm := x })
    let kept (s : State) (f : List (Nat × Session) → List (Nat × Session)) : State := match who with
      | .device => { s with sessions := f s.sessions }
      | .tdi p => s.modPart p.toNat (fun q => { q with sessions := f q.sessions })
    let mod (f : Partition → Partition) : State := s.modPart tdi.toNat f
    (¬ runs → ∀ i, i ∈ [Instr.getVersion who, .getCapabilities who, .negotiateAlgorithms who, .getDigests who, .getCertificate who, .challenge who n,
      .getMeasurements who n, .keyExchange who n, .finish who n, .heartbeat who n, .keyUpdate who n, .endSession who n, .tdiLock tdi n, .tdiStart tdi n,
      .stopInterface tdi n] → exec i s = .next s) ∧
    (runs →
      At (.getVersion who) 0 (say (moved .version) who 1 [0x13]) ∧
      At (.getCapabilities who) 1 (say (moved .capabilities) who 2 []) ∧
      At (.negotiateAlgorithms who) 2 (say (moved .algorithms) who 3 [44, 256, 768, 256]) ∧
      At (.getDigests who) 3 (say s who 4 [(Config.digest []).toNat]) ∧ At (.getCertificate who) 3 (say s who 5 [(Config.digest []).toNat]) ∧
      At (.challenge who n) 3 (say s who 6 [(Config.signature 0 [n, (Config.digest []).toNat]).toNat]) ∧
      At (.getMeasurements who n) 3 (match s.measured n with
        | some l => say s who 7 [n, (Config.digest l).toNat]
        | none => say s who 0 []) ∧
      At (.keyExchange who n) 3 (say (kept { s with nextId := s.nextId + 1 } (fun l => Map.insert l s.nextId ⟨n, false, 0, 0⟩)) who 8 [s.nextId]) ∧
      (session who = none → ∀ i, i ∈ [Instr.finish who n, .heartbeat who n, .keyUpdate who n, .endSession who n] → exec i s = .next (say s who 0 [])) ∧
      (∀ x, session who = some x →
        let changed (f : Session → Session) : State := kept s (fun l => Map.modify l n f)
        (x.finished = false → exec (.finish who n) s = .next (say (changed (fun x => { x with finished := true })) who 9 [n])) ∧
        (x.finished = true →
          exec (.heartbeat who n) s = .next (say (changed (fun x => { x with heartbeats := x.heartbeats + 1 })) who 10 [n]) ∧
          exec (.keyUpdate who n) s = .next (say (changed (fun x => { x with updates := x.updates + 1 })) who 11 [n]) ∧
          exec (.endSession who n) s = .next (say (kept s (fun l => Map.erase l n)) who 12 [n]))) ∧
      let done (t : State) : State := say t (.tdi tdi) 13 [n]
      ((∀ x, session (.tdi tdi) = some x → x.finished = false) → ∀ i, i ∈ [Instr.tdiLock tdi n, .tdiStart tdi n, .stopInterface tdi n] →
        exec i s = .next (say s (.tdi tdi) 0 [])) ∧
      ∀ x, session (.tdi tdi) = some x → x.finished = true →
        exec (.tdiLock tdi n) s = .next (if p.tdi = .unlocked ∧ p.pstat ≠ 1 then done (mod (fun p => { p with tdi := .locked })) else say s (.tdi tdi) 0 []) ∧
        exec (.tdiStart tdi n) s = .next (if p.tdi = .locked ∧ p.pstat ≠ 1 then done (mod (fun p => { p with tdi := .run, pstat := 0 }))
          else say s (.tdi tdi) 0 []) ∧
        (p.pstat = 1 → p.tdi ≠ .error → exec (.stopInterface tdi n) s = .next (say s (.tdi tdi) 0 [])) ∧
        (p.pstat = 1 → p.tdi = .error → exec (.stopInterface tdi n) s = .next (done (mod (fun p => { p with stopAsked := p.tdi == .error })))) ∧
        (p.pstat ≠ 1 → (s.startReset tdi.toNat).beyond = none → exec (.stopInterface tdi n) s =
          .next (done ((s.startReset tdi.toNat).modPart tdi.toNat (fun p => { p with stopAsked := p.tdi == .error }))))) ∧
    (s.devState = .running → p.pstat ≠ 1 → (s.startReset tdi.toNat).beyond = none →
      exec (.partitionReset tdi) s = .next (s.startReset tdi.toNat)) ∧
    ((∀ l ∈ s.launches, l.2.part ≠ tdi.toNat) → (s.startReset tdi.toNat).beyond = none) ∧
    (s.devState = .running → p.pstat ≠ 1 →
      ((s.startReset tdi.toNat).part tdi.toNat).pstat = 1 ∧ (∀ g ∈ (s.startReset tdi.toNat).groups, g.2.part ≠ tdi.toNat) ∧
      ∀ c ∈ p.coreList, c < Config.cores → ((s.startReset tdi.toNat).core c).clock = 0) ∧
    (p.pstat = 1 →
      let stays : Bool := p.tdi = .error ∧ p.stopAsked = false
      ∃ t, exec (.partitionResetEnd tdi) s = .next t ∧ (t.part tdi.toNat).pstat = (if stays then 3 else 2) ∧
        (t.part tdi.toNat).tdi = (if stays then .error else .unlocked) ∧
        ∀ a, Memory.read t.mem a = if p.holds a then 0 else Memory.read s.mem a) ∧
    (∀ cfg, s.devState = .running → p.tdi ≠ .unlocked → p.pstat ≠ 1 → (s.startReset tdi.toNat).beyond = none →
      exec (.partitionConfig tdi cfg) s = .next ((s.startReset tdi.toNat).modPart tdi.toNat (fun p => { p with tdi := .error }))) ∧
    (∀ cfg, s.devState = .running → p.tdi = .unlocked → p.pstat = 2 → s.configFree tdi.toNat cfg = true →
      ∃ t, exec (.partitionConfig tdi cfg) s = .next t ∧ (t.part tdi.toNat).clusters = cfg.clusters ∧ (t.part tdi.toNat).keys = cfg.keys ∧
        (t.part tdi.toNat).primary = cfg.primary ∧ (t.part tdi.toNat).asidFirst = cfg.asidFirst.toNat ∧ (t.part tdi.toNat).asidCount = cfg.asidCount.toNat ∧
        (p.clusters ≠ cfg.clusters → ∀ a, (p.configure cfg).holds a = true →
          (∀ i < 128, a ≠ (p.configure cfg).place 0 (cfg.root.toNat + i)) → Memory.read t.mem a = 0))

/-- Errors, repair, boot and firmware (R274, R303, R416–R418, R422–R425, R429–R431): an error is recorded and its place marked; a lasting fault is retired once nothing
uses its unit; a fatal error freezes the records; a boot raises EPOCH and runs the first bundle that passes its check, or none; a floor never falls, and only a
signed image at or above it is staged.
It rests on choices of the model's: log entries 16, 17, 26, 45 and 46. -/
def Obligations.DeviceEventsHappen : Prop :=
  ∀ (s : State) (u : UnitRef) (core n : Nat), s.beyond = none →
    let Gives (i : Instr) (t : State) : Prop := t.beyond = none → exec i s = .next t
    let v := unitNorm u
    (unitKnown v = true →
      (∃ t, exec (.correctedError u) s = .next t ∧ (clusterOf v.core < Config.clusters →
        (t.cluster (clusterOf v.core)).corrected =
          (v, s.now) :: ((s.cluster (clusterOf v.core)).corrected.filter (fun x => decide (x.1 ≠ v ∨ s.now < x.2 + 1000000000))))) ∧
      (∀ a, ∃ t, exec (.uncorrectableError u (some (.line a))) s = .next t ∧ a ∈ t.badLines ∧ t.underTest u = true)) ∧
    (s.underTest u = true → Gives (.selfTestEnd u) (s.endTest v) ∧ (v.cls ≠ 3 → exec (.selfTestEnd u) s = .next (s.endTest v)) ∧ ∀ x ∈ (s.endTest v).tests, x.unit ≠ v) ∧
    (∀ part bank, part < 4 → bank < 8 → 8 * part + bank ∈ (s.core core).bankFaults → (∀ g ∈ s.groups, g.2.core ≠ core) →
      ∃ t, exec (.registerBankRetire core part bank) s = .next t ∧ (core < Config.cores → 8 * part + bank ∈ (t.core core).retiredBanks ∧
        8 * part + bank ∉ (t.core core).bankFaults)) ∧
    (∀ row, row ∈ (s.core core).rowFaults → (s.core core).owner = none →
      ∃ t, exec (.spareRowEntry core row) s = .next t ∧ (core < Config.cores →
        if 8 ≤ (s.core core).spares ∨ 264 ≤ row then (t.core core).arrayRetired = true
        else (t.core core).spares = (s.core core).spares + 1 ∧ row ∈ (t.core core).retiredRows ∧ row ∉ (t.core core).rowFaults)) ∧
    (∀ cause, s.devState = .running →
      ((s.fatal cause).beyond = none → exec (.fatalError cause) s = .next (s.fatal cause)) ∧ (s.launches = [] → (s.fatal cause).beyond = none) ∧ (s.fatal cause).devState = .fatal ∧ ∀ k < Config.clusters, ((s.fatal cause).cluster k).frozen = true) ∧
    (∀ (warm mramOk : Bool) (bundles : List Bundle),
      let passes (b : Bundle) : Bool := b.signed && decide (s.floors[(0 : Fin 3)] ≤ b.ecinzel) && decide (s.floors[(1 : Fin 3)] ≤ b.control) &&
        decide (s.floors[(2 : Fin 3)] ≤ b.cluster)
      ∃ t, exec (if warm then .warmReset mramOk bundles else .coldReset mramOk bundles) s = .next t ∧ t.floors = s.floors ∧ t.now = s.now ∧
        t.hostMem = s.hostMem ∧ t.groups = [] ∧ t.mem = [] ∧
        (mramOk = false → t.devState = .recovery) ∧ (mramOk = true → t.epoch = s.epoch + 1) ∧
        (mramOk = true → (bundles.take 3).find? passes = none → t.devState = .recovery) ∧
        (∀ b, mramOk = true → (bundles.take 3).find? passes = some b → t.devState = .running ∧ t.versions[(1 : Fin 3)] = b.control ∧
          t.versions[(2 : Fin 3)] = b.control ∧ t.versions[(0 : Fin 3)] = s.stagedEcinzel.getD b.ecinzel) ∧
        (s.staged = [] → ∀ k < Config.clusters, (t.cluster k).cast = (if warm then (s.cluster k).cast else []))) ∧
    (∀ k, k < Config.clusters → s.devState ≠ .booting →
      let ring : Option (Nat × Nat) → Sent := .record k (s.cluster k).castHead (s.cluster k).cast
        (Config.signature 1 ((s.cluster k).castHead.toNat :: (s.cluster k).cast.flatMap CastEvent.numbers))
      exec (.castRecordRead ⟨k, none⟩) s = .next { s with sent := ring none :: s.sent } ∧
      ∀ (p : BitVec 5) (id : Nat) (x : Session), s.devState = .running ∨ s.devState = .fatal → Map.find (s.part p.toNat).sessions id = some x →
        x.finished = true → exec (.castRecordRead ⟨k, some (p, id)⟩) s = .next
          { s with sent := .recordKey p.toNat id (s.part p.toNat).recordKey :: ring (some (p.toNat, id)) :: s.sent }) ∧
    (∀ image, s.devState = .running → image.signed = true → s.floors.toList[componentIndex image.component]?.getD 0 ≤ image.version →
      imagePlaced image = true → exec (.firmwareStage image) s = .next (s.stage image)) ∧
    (∀ image, image.signed = false ∨ image.version < s.floors.toList[componentIndex image.component]?.getD 0 → exec (.firmwareStage image) s = .next s) ∧
    (∀ k i, s.devState = .running → (s.cluster k).staged = some i → (∀ g ∈ s.groups, clusterOf g.2.core ≠ k) → s.clusterBusy k = false →
      exec (.firmwareApply k) s = .next ((s.modCluster k (fun c => { c with firmware := i.version, staged := none })).cast k
        { cls := 0x0B, cause := 1, data := BitVec.ofNat 32 i.version })) ∧
    (∀ c : Component, s.devState = .running → s.running_ c n = true → s.floors.toList[componentIndex c]?.getD 0 < n →
      ∃ t, exec (.firmwareCommit c n true) s = .next t ∧ t.floors.toList[componentIndex c]?.getD 0 = n) ∧
    ∀ c : Component, exec (.firmwareCommit c n false) s = .next s
end

