-- ==== Sys2Proof/Laws/Sparse.lean ====
section
/-! SUPPORT. What the keyed lists and memory do: reads after writes, and the canonical form that every memory operation keeps. -/

namespace Sys2Proof.Machine

variable {α : Type}

/-! ## Keyed lists -/

theorem Map.find_insert (m : List (Nat × α)) (k : Nat) (v : α) (j : Nat) :
    Map.find (Map.insert m k v) j = if j = k then some v else Map.find m j := by
  induction m with
  | nil => simp [Map.insert, Map.find]
  | cons p rest ih =>
    obtain ⟨i, w⟩ := p
    simp only [Map.insert]
    split
    · simp only [Map.find]
    · split
      · subst_vars; simp only [Map.find]; split <;> rfl
      · simp only [Map.find, ih]; split <;> split <;> first | rfl | omega

theorem Map.find_erase (m : List (Nat × α)) (k j : Nat) :
    Map.find (Map.erase m k) j = if j = k then none else Map.find m j := by
  induction m with
  | nil => simp [Map.erase, Map.find]
  | cons p rest ih =>
    obtain ⟨i, w⟩ := p
    simp only [Map.erase, List.filter_cons] at ih ⊢
    by_cases h : i = k
    · subst h; simp only [bne_self_eq_false, Bool.false_eq_true, ↓reduceIte, ih, Map.find]; split <;> rfl
    · simp only [bne_iff_ne, ne_eq, h, not_false_eq_true, ↓reduceIte, Map.find, ih]
      split <;> split <;> first | rfl | omega

theorem Map.find_modify (m : List (Nat × α)) (k : Nat) (f : α → α) (j : Nat) :
    Map.find (Map.modify m k f) j = if j = k then (Map.find m j).map f else Map.find m j := by
  induction m with
  | nil => simp [Map.modify, Map.find]
  | cons p rest ih =>
    obtain ⟨i, w⟩ := p
    simp only [Map.modify, List.map_cons] at ih ⊢
    by_cases h : i = k
    · subst h; simp only [↓reduceIte, Map.find, ih]; split <;> simp
    · simp only [h, ↓reduceIte, Map.find, ih]; split <;> split <;> first | rfl | omega

/-- The one entry a `modify` of its own key changes. -/
@[simp] theorem Map.find_modify_same (m : List (Nat × α)) (k : Nat) (f : α → α) :
    Map.find (Map.modify m k f) k = (Map.find m k).map f := by simp [Map.find_modify]

theorem Map.find_modify_other (m : List (Nat × α)) (k : Nat) (f : α → α) (j : Nat) (h : j ≠ k) :
    Map.find (Map.modify m k f) j = Map.find m j := by simp [Map.find_modify, h]

theorem Map.get_set [DecidableEq α] (m : List (Nat × α)) (k : Nat) (v d : α) (j : Nat) :
    Map.get (Map.set m k v d) j d = if j = k then v else Map.get m j d := by
  simp only [Map.get, Map.set]
  split
  · rw [Map.find_erase]; split <;> simp_all
  · rw [Map.find_insert]; split <;> simp_all

/-- A rising list under its first key: every key of the tail is above it. -/
theorem Map.sorted_cons (p : Nat × α) (m : List (Nat × α)) :
    Map.sorted (p :: m) = true ↔ (∀ q ∈ m, p.1 < q.1) ∧ Map.sorted m = true := by
  induction m generalizing p with
  | nil => simp [Map.sorted]
  | cons q rest ih =>
    obtain ⟨i, v⟩ := p
    obtain ⟨j, w⟩ := q
    simp only [Map.sorted, Bool.and_eq_true, decide_eq_true_eq, List.mem_cons, forall_eq_or_imp]
    constructor
    · rintro ⟨h1, h2⟩
      exact ⟨⟨h1, fun r hr => Nat.lt_trans h1 (((ih (j, w)).1 h2).1 r hr)⟩, h2⟩
    · rintro ⟨⟨h1, _⟩, h2⟩; exact ⟨h1, h2⟩

theorem Map.mem_insert (m : List (Nat × α)) (k : Nat) (v : α) (p : Nat × α) (h : p ∈ Map.insert m k v) :
    p = (k, v) ∨ p ∈ m := by
  induction m with
  | nil => simpa [Map.insert] using h
  | cons q rest ih =>
    obtain ⟨j, w⟩ := q
    simp only [Map.insert] at h
    split at h
    · simpa using h
    · split at h
      · rcases List.mem_cons.1 h with h | h
        · exact .inl h
        · exact .inr (List.mem_cons_of_mem _ h)
      · rcases List.mem_cons.1 h with h | h
        · exact .inr (h ▸ List.mem_cons_self ..)
        · exact (ih h).imp id (List.mem_cons_of_mem _)

theorem Map.sorted_insert (m : List (Nat × α)) (k : Nat) (v : α) (h : Map.sorted m = true) :
    Map.sorted (Map.insert m k v) = true := by
  induction m with
  | nil => rfl
  | cons q rest ih =>
    obtain ⟨j, w⟩ := q
    have hs := (Map.sorted_cons _ _).1 h
    simp only [Map.insert]
    split
    · rename_i hk
      refine (Map.sorted_cons _ _).2 ⟨fun p hp => ?_, h⟩
      rcases List.mem_cons.1 hp with hp | hp
      · subst hp; exact hk
      · exact Nat.lt_trans hk (hs.1 p hp)
    · split
      · rename_i hk; subst hk; exact (Map.sorted_cons _ _).2 hs
      · refine (Map.sorted_cons _ _).2 ⟨fun p hp => ?_, ih hs.2⟩
        rcases Map.mem_insert _ _ _ _ hp with hp | hp
        · subst hp; simp; omega
        · exact hs.1 p hp

theorem Map.sorted_filter (m : List (Nat × α)) (f : Nat × α → Bool) (h : Map.sorted m = true) :
    Map.sorted (m.filter f) = true := by
  induction m with
  | nil => rfl
  | cons q rest ih =>
    have hs := (Map.sorted_cons _ _).1 h
    simp only [List.filter_cons]
    split
    · exact (Map.sorted_cons _ _).2 ⟨fun p hp => hs.1 p (List.mem_of_mem_filter hp), ih hs.2⟩
    · exact ih hs.2

/-! ## Memory -/

theorem Memory.wf_iff (m : List Host.Cell) : Memory.wf m = true ↔ Map.sorted m = true ∧ ∀ p ∈ m, p.2 ≠ 0 := by
  simp [Memory.wf]

/-- A byte written reads back; every other byte reads as before. -/
theorem Memory.read_write (m : List Host.Cell) (a : Nat) (b : Byte) (x : Nat) :
    Memory.read (Memory.write m a b) x = if x = a then b else Memory.read m x := Map.get_set m a b Memory.unlisted x

/-- One byte written keeps the canonical form. -/
theorem Memory.write_wf (m : List Host.Cell) (a : Nat) (b : Byte) (h : Memory.wf m = true) :
    Memory.wf (Memory.write m a b) = true := by
  rw [Memory.wf_iff] at h ⊢
  simp only [Memory.write, Map.set]
  split
  · exact ⟨Map.sorted_filter _ _ h.1, fun p hp => h.2 p (List.mem_of_mem_filter hp)⟩
  · rename_i hb
    refine ⟨Map.sorted_insert _ _ _ h.1, fun p hp => ?_⟩
    rcases Map.mem_insert _ _ _ _ hp with hp | hp
    · subst hp; exact hb
    · exact h.2 p hp

/-- Bytes dropped keep the canonical form. -/
theorem Memory.filter_wf (m : List Host.Cell) (f : Host.Cell → Bool) (h : Memory.wf m = true) :
    Memory.wf (m.filter f) = true := by
  rw [Memory.wf_iff] at h ⊢
  exact ⟨Map.sorted_filter _ _ h.1, fun p hp => h.2 p (List.mem_of_mem_filter hp)⟩

/-- Any list of writes keeps the canonical form. -/
theorem Memory.writes_wf (cells : List Host.Cell) (m : List Host.Cell) (h : Memory.wf m = true) :
    Memory.wf (cells.foldl (fun m c => Memory.write m c.1 c.2) m) = true := by
  induction cells generalizing m with
  | nil => exact h
  | cons c cs ih => exact ih _ (Memory.write_wf _ _ _ h)

/-- A list of writes leaves every address outside it as it was. -/
theorem Memory.read_writes_other (cells : List Host.Cell) (m : List Host.Cell) (x : Nat) (h : ∀ c ∈ cells, c.1 ≠ x) :
    Memory.read (cells.foldl (fun m c => Memory.write m c.1 c.2) m) x = Memory.read m x := by
  induction cells generalizing m with
  | nil => rfl
  | cons c cs ih =>
    rw [List.foldl_cons, ih _ (fun d hd => h d (List.mem_cons_of_mem _ hd)), Memory.read_write,
      if_neg (fun e => h c (List.mem_cons_self ..) e.symm)]

/-- Bytes written from an address up keep the canonical form. -/
theorem Memory.writeBytes_wf (bs : List Byte) (m : List Host.Cell) (a : Nat) (h : Memory.wf m = true) :
    Memory.wf (Memory.writeBytes m a bs) = true := by
  induction bs generalizing m a with
  | nil => exact h
  | cons b bs ih => exact ih _ _ (Memory.write_wf _ _ _ h)

/-- What a byte reads as after bytes have been written from an address up. -/
theorem Memory.read_writeBytes (bs : List Byte) (m : List Host.Cell) (a x : Nat) :
    Memory.read (Memory.writeBytes m a bs) x =
      if a ≤ x ∧ x < a + bs.length then (bs[x - a]?).getD 0 else Memory.read m x := by
  induction bs generalizing m a with
  | nil => simp [Memory.writeBytes]
  | cons b bs ih =>
    rw [Memory.writeBytes, ih, Memory.read_write, List.length_cons]
    by_cases h1 : x = a
    · subst h1; simp
    · by_cases h2 : a + 1 ≤ x ∧ x < a + 1 + bs.length
      · rw [if_pos h2, if_pos ⟨by omega, by omega⟩, show x - a = (x - (a + 1)) + 1 by omega]; simp
      · rw [if_neg h2, if_neg h1, if_neg (by omega)]

/-! ## Elements of vectors -/

theorem vget_of_lt {n : Nat} (v : Vector α n) (i : Nat) (d : α) (h : i < n) : vget v i d = v[i] := by
  simp [vget, h]

theorem vget_of_ge {n : Nat} (v : Vector α n) (i : Nat) (d : α) (h : n ≤ i) : vget v i d = d := by
  simp [vget, h]

theorem vget_vmod {n : Nat} (v : Vector α n) (i j : Nat) (f : α → α) (d : α) :
    vget (vmod v i f) j d = if j = i ∧ i < n then f (vget v i d) else vget v j d := by
  unfold vmod
  by_cases h : i < n
  · simp only [Vector.getElem?_eq_getElem h]
    by_cases hj : j = i
    · subst hj; simp [vget, h]
    · have : ¬ i = j := fun e => hj e.symm
      simp [vget, hj, this]
  · rw [Vector.getElem?_eq_none (by omega)]; simp [h]

end Sys2Proof.Machine
end

