-- ==== Sys2Proof/Laws/Lays.lean ====
section
/-! SUPPORT. What the operand forms do to what threads read (R29–R41): a register's value survives every change of another
register's storage, and a result is read where the rules say. -/

namespace Sys2Proof.Machine

theorem Wave.SameBut.refl (w : Wave) : w.SameBut w := rfl

theorem Wave.SameBut.trans {w w' w'' : Wave} (h : w.SameBut w') (h' : w'.SameBut w'') : w.SameBut w'' := by
  unfold Wave.SameBut at *
  rw [h'] ; rw [h]

theorem Wave.SameBut.alive {w w' : Wave} (h : w.SameBut w') : w'.alive = w.alive := by
  unfold Wave.SameBut at h; rw [h]; rfl

theorem Wave.SameBut.full {w w' : Wave} (h : w.SameBut w') (cov : Mask) : w'.full cov = w.full cov := by
  unfold Wave.full; rw [h.alive]

theorem Wave.SameBut.ident {w w' : Wave} (h : w.SameBut w') : w'.ident = w.ident := by
  unfold Wave.SameBut at h; rw [h]; rfl

/-! ## One register set -/

theorem Wave.reg_of_ge (w : Wave) (r : Nat) (h : 256 ≤ r) : w.reg r = Register.launch := vget_of_ge _ _ _ h

theorem Wave.reg_setReg (w : Wave) (r q : Nat) (x : Register) :
    (w.setReg r x).reg q = if q = r ∧ r < 256 then x else w.reg q := by
  unfold Wave.setReg Wave.reg vget
  by_cases h : r < 256
  · by_cases hq : q = r
    · subst hq; simp [h]
    · have : ¬ r = q := fun e => hq e.symm
      simp [hq, this]
  · have : (w.regs.setIfInBounds r x) = w.regs := by
      apply Vector.ext; intro i hi; rw [Vector.getElem_setIfInBounds]; split <;> first | omega | rfl
    simp [this, h]

theorem Wave.sameBut_setReg (w : Wave) (r : Nat) (x : Register) : w.SameBut (w.setReg r x) := rfl

theorem Wave.sameBut_setBad (w : Wave) (r : Nat) (bad : List Nat) : w.SameBut (w.setBad r bad) := rfl

theorem Wave.reg_setBad (w : Wave) (r q : Nat) (bad : List Nat) : (w.setBad r bad).reg q = w.reg q := rfl

theorem Wave.sameBut_unborrow (w : Wave) (r : Nat) : w.SameBut (w.unborrow r) := by
  unfold Wave.unborrow; split <;> rfl

theorem Wave.reg_unborrow (w : Wave) (h : w.Borrows) (r q : Nat) :
    (w.unborrow r).reg q =
      if (w.reg r).base = some q then { w.reg q with borrowers := (w.reg q).borrowers.filter (fun x => x != r) } else w.reg q := by
  unfold Wave.unborrow
  split
  · rename_i hb; simp [hb]
  · rename_i b hb
    rw [Wave.reg_setReg, hb]
    have := (h.base r b hb).2.1
    by_cases hq : q = b
    · subst hq; simp [this]
    · have : ¬ b = q := fun e => hq e.symm
      simp [hq, this]

theorem Wave.sameBut_install (w : Wave) (r : Nat) (elems : Row) (loc : LocMap) (tag : Tag) (bad : List Nat) :
    w.SameBut (w.install r elems loc tag bad) :=
  (w.sameBut_unborrow r).trans (((w.unborrow r).sameBut_setBad r bad).trans (Wave.sameBut_setReg _ _ _))

/-- The registers after one of them has taken contents and a lay of its own. -/
theorem Wave.reg_install (w : Wave) (h : w.Borrows) (r q : Nat) (elems : Row) (loc : LocMap) (tag : Tag) (bad : List Nat)
    (hr : r < 256) :
    (w.install r elems loc tag bad).reg q =
      if q = r then { w.reg r with elems := elems, base := none, loc := loc, tag := tag }
      else if (w.reg r).base = some q then { w.reg q with borrowers := (w.reg q).borrowers.filter (fun x => x != r) }
      else w.reg q := by
  unfold Wave.install
  have hn : (w.reg r).base ≠ some r := fun e => (h.base r r e).2.2.1 rfl
  rw [Wave.reg_setReg, Wave.reg_setBad, Wave.reg_setBad, w.reg_unborrow h, w.reg_unborrow h, if_neg hn]
  simp [hr]

/-- No register borrows this one. -/
def Wave.Free (w : Wave) (r : Nat) : Prop := ∀ q, (w.reg q).base ≠ some r

theorem Wave.borrows_install (w : Wave) (h : w.Borrows) (r : Nat) (elems : Row) (loc : LocMap) (tag : Tag) (bad : List Nat)
    (hr : r < 256) : (w.install r elems loc tag bad).Borrows := by
  have R := fun q => w.reg_install h r q elems loc tag bad hr
  have bs : ∀ q, ((w.install r elems loc tag bad).reg q).base = if q = r then none else (w.reg q).base := by
    intro q; rw [R]; split <;> [rfl; (split <;> rfl)]
  have bo : ∀ q, ((w.install r elems loc tag bad).reg q).borrowers =
      if (w.reg r).base = some q then (w.reg q).borrowers.filter (fun x => x != r) else (w.reg q).borrowers := by
    intro q; rw [R]
    by_cases hq : q = r
    · subst hq
      rw [if_pos rfl, if_neg (fun e => (h.base q q e).2.2.1 rfl)]
    · rw [if_neg hq]; split <;> rfl
  refine ⟨fun q b hb => ?_, fun b q hq => ?_, fun b => ?_⟩
  · rw [bs] at hb
    split at hb
    · simp at hb
    · rename_i hqr
      obtain ⟨h1, h2, h3, h4, h5⟩ := h.base q b hb
      refine ⟨h1, h2, h3, ?_, ?_⟩
      · rw [bs]; split <;> [rfl; exact h4]
      · rw [bo]; split
        · exact List.mem_filter.2 ⟨h5, by simpa using hqr⟩
        · exact h5
  · rw [bo] at hq
    rw [bs]
    split at hq
    · obtain ⟨h1, h2⟩ := List.mem_filter.1 hq
      rw [if_neg (by simpa using h2)]; exact h.back b q h1
    · rename_i hb
      have := h.back b q hq
      rw [if_neg (fun e : q = r => hb (e ▸ this))]; exact this
  · rw [bo]; split
    · exact (h.nodup b).filter _
    · exact h.nodup b

theorem Wave.free_install (w : Wave) (h : w.Borrows) (r p : Nat) (elems : Row) (loc : LocMap) (tag : Tag) (bad : List Nat)
    (hr : r < 256) (hp : w.Free p) : (w.install r elems loc tag bad).Free p := by
  intro q
  rw [w.reg_install h r q elems loc tag bad hr]
  split
  · simp
  · split
    · exact hp q
    · exact hp q

/-- What a thread reads of the register that took the contents. -/
theorem Wave.read_install_same (w : Wave) (h : w.Borrows) (r : Nat) (elems : Row) (loc : LocMap) (tag : Tag) (bad : List Nat)
    (hr : r < 256) (t : Lane) :
    (w.install r elems loc tag bad).read r t = match loc[t] with | none => 0 | some e => elems[e] := by
  unfold Wave.read Wave.baseOf
  rw [w.reg_install h r r elems loc tag bad hr, if_pos rfl]
  cases loc[t] <;> simp [w.reg_install h r r elems loc tag bad hr]

/-- What a thread reads of any other register, where none borrows the one that took the contents. -/
theorem Wave.read_install_other (w : Wave) (h : w.Borrows) (r q : Nat) (elems : Row) (loc : LocMap) (tag : Tag) (bad : List Nat)
    (hr : r < 256) (hf : w.Free r) (hq : q ≠ r) (t : Lane) :
    (w.install r elems loc tag bad).read q t = w.read q t := by
  have R := fun q => w.reg_install h r q elems loc tag bad hr
  have L : ∀ x, x ≠ r → ((w.install r elems loc tag bad).reg x).loc = (w.reg x).loc ∧
      ((w.install r elems loc tag bad).reg x).base = (w.reg x).base ∧
      ((w.install r elems loc tag bad).reg x).elems = (w.reg x).elems := by
    intro x hx; rw [R, if_neg hx]; split <;> exact ⟨rfl, rfl, rfl⟩
  unfold Wave.read Wave.baseOf
  rw [(L q hq).1, (L q hq).2.1]
  split
  · rfl
  · rw [(L _ _).2.2]
    cases hb : (w.reg q).base with
    | none => simpa using hq
    | some b => intro e; exact hf q (by rw [hb]; simpa using e)

/-! ## Materialising -/

theorem Wave.borrower_free (w : Wave) (h : w.Borrows) (r b : Nat) (hb : (w.reg r).base = some b) : w.Free r := by
  intro q hq
  have := (h.base q r hq).2.2.2.1
  rw [hb] at this
  cases this

theorem Wave.SameBut.placed {w w' : Wave} (h : w.SameBut w') (hp : w.Placed) : w'.Placed := by
  intro t ht; rw [h.alive] at ht; rw [h.ident]; exact hp t ht

/-- Materialising a register that none borrows leaves what every live thread reads of every register (R34). -/
theorem Wave.read_materialiseOne (w : Wave) (h : w.Borrows) (hp : w.Placed) (r q : Nat) (hr : r < 256) (hf : w.Free r) (t : Lane)
    (ht : Mask.has w.alive t = true) : (w.materialiseOne r).read q t = w.read q t := by
  unfold Wave.materialiseOne
  by_cases hq : q = r
  · subst hq
    rw [w.read_install_same h q _ _ _ _ hr, hp t ht]
    simp [Wave.readRow]
  · exact w.read_install_other h r q _ _ _ _ hr hf hq t

/-- The lay of a register that took contents, and of any other. -/
theorem Wave.lay_install (w : Wave) (h : w.Borrows) (r q : Nat) (elems : Row) (loc : LocMap) (tag : Tag) (bad : List Nat)
    (hr : r < 256) :
    ((w.install r elems loc tag bad).reg q).loc = (if q = r then loc else (w.reg q).loc) ∧
      ((w.install r elems loc tag bad).reg q).base = (if q = r then none else (w.reg q).base) ∧
      ((w.install r elems loc tag bad).reg q).tag = (if q = r then tag else (w.reg q).tag) := by
  rw [w.reg_install h r q elems loc tag bad hr]
  by_cases hq : q = r
  · simp [hq]
  · simp only [hq, if_false]; split <;> exact ⟨rfl, rfl, rfl⟩

/-- What materialising comes to: the shape is kept, every live thread reads what it read, tags stay, no entry becomes VOID for a live
thread, and an identity lay stays one. -/
structure Wave.Settled (w w' : Wave) : Prop where
  borrows : w'.Borrows
  same : w.SameBut w'
  read : ∀ q t, Mask.has w.alive t = true → w'.read q t = w.read q t
  tag : ∀ q, (w'.reg q).tag = (w.reg q).tag
  entry : ∀ q (t : Lane), Mask.has w.alive t = true → (w.reg q).loc[t] ≠ none → (w'.reg q).loc[t] ≠ none
  ident : ∀ q, w.isIdentity q = true → w'.isIdentity q = true

theorem Wave.Settled.refl (w : Wave) (h : w.Borrows) : w.Settled w :=
  ⟨h, .refl w, fun _ _ _ => rfl, fun _ => rfl, fun _ _ _ h => h, fun _ h => h⟩

theorem Wave.Settled.trans {w w' w'' : Wave} (h : w.Settled w') (h' : w'.Settled w'') : w.Settled w'' :=
  have ha : w'.alive = w.alive := h.same.alive
  ⟨h'.borrows, h.same.trans h'.same, fun q t ht => (h'.read q t (ha ▸ ht)).trans (h.read q t ht),
    fun q => (h'.tag q).trans (h.tag q), fun q t ht he => h'.entry q t (ha ▸ ht) (h.entry q t ht he),
    fun q hq => h'.ident q (h.ident q hq)⟩

theorem Wave.settled_materialiseOne (w : Wave) (h : w.Borrows) (hp : w.Placed) (r : Nat) (hr : r < 256) (hf : w.Free r) :
    w.Settled (w.materialiseOne r) := by
  have L := fun q => w.lay_install h r q (w.readRow r) w.ident (w.reg r).tag (w.badLanes r) hr
  have hs : w.SameBut (w.materialiseOne r) := w.sameBut_install r _ _ _ _
  refine ⟨w.borrows_install h r _ _ _ _ hr, hs, fun q t ht => w.read_materialiseOne h hp r q hr hf t ht, fun q => ?_,
    fun q t ht he => ?_, fun q hi => ?_⟩
  · unfold Wave.materialiseOne; rw [(L q).2.2]; split <;> simp_all
  · unfold Wave.materialiseOne; rw [(L q).1]
    by_cases hq : q = r
    · rw [if_pos hq, hp t ht]; simp
    · rwa [if_neg hq]
  · have hid := hs.ident
    unfold Wave.materialiseOne at hid
    unfold Wave.isIdentity Wave.materialiseOne at *
    rw [(L q).1, (L q).2.1, hid]
    by_cases hq : q = r
    · simp [hq]
    · simpa [hq] using hi

/-- A register that took the identity lay has it. -/
theorem Wave.isIdentity_materialiseOne (w : Wave) (h : w.Borrows) (r : Nat) (hr : r < 256) :
    (w.materialiseOne r).isIdentity r = true := by
  have L := w.lay_install h r r (w.readRow r) w.ident (w.reg r).tag (w.badLanes r) hr
  have hid := (w.sameBut_install r (w.readRow r) w.ident (w.reg r).tag (w.badLanes r)).ident
  unfold Wave.isIdentity Wave.materialiseOne
  rw [L.1, L.2.1, hid]; simp

/-- The borrowers of a register materialised in turn: none is left (R35). -/
theorem Wave.free_foldl (ls : List Nat) : ∀ (w : Wave) (r : Nat), w.Borrows → w.Placed → (w.reg r).borrowers = ls →
    w.Settled (ls.foldl Wave.materialiseOne w) ∧ (ls.foldl Wave.materialiseOne w).Free r ∧
      (∀ p, w.Free p → (ls.foldl Wave.materialiseOne w).Free p) := by
  induction ls with
  | nil =>
    intro w r h _ hl
    refine ⟨.refl w h, fun q hq => ?_, fun _ hp => hp⟩
    have := (h.base q r hq).2.2.2.2
    rw [hl] at this; simp at this
  | cons a ls ih =>
    intro w r h hp hl
    have ha : (w.reg a).base = some r := h.back r a (hl ▸ List.mem_cons_self ..)
    have hlt := (h.base a r ha).1
    have hs := w.settled_materialiseOne h hp a hlt (w.borrower_free h a r ha)
    have hra : r ≠ a := (h.base a r ha).2.2.1
    have hreg : ((w.materialiseOne a).reg r).borrowers = ls := by
      unfold Wave.materialiseOne
      rw [w.reg_install h a r _ _ _ _ hlt, if_neg hra, if_pos ha, hl, List.filter_cons_of_neg (by simp)]
      have hn : (a :: ls).Nodup := hl ▸ h.nodup r
      apply List.filter_eq_self.2
      intro x hx
      have : x ≠ a := fun e => (List.nodup_cons.1 hn).1 (e ▸ hx)
      simpa using this
    obtain ⟨i1, i2, i3⟩ := ih (w.materialiseOne a) r hs.borrows (hs.same.placed hp) hreg
    exact ⟨hs.trans i1, i2, fun p hf => i3 p (w.free_install h a p _ _ _ _ hlt hf)⟩

theorem Wave.freeBorrowers_spec (w : Wave) (h : w.Borrows) (hp : w.Placed) (r : Nat) :
    w.Settled (w.freeBorrowers r) ∧ (w.freeBorrowers r).Free r ∧ (∀ p, w.Free p → (w.freeBorrowers r).Free p) :=
  Wave.free_foldl _ w r h hp rfl

/-- Re-laying a register leaves what every live thread reads (R34, R35), and gives it the identity lay. -/
theorem Wave.materialise_spec (w : Wave) (h : w.Borrows) (hp : w.Placed) (r : Nat) (hr : r < 256) :
    w.Settled (w.materialise r) ∧ (w.materialise r).isIdentity r = true ∧ (∀ p, w.Free p → (w.materialise r).Free p) := by
  unfold Wave.materialise
  split
  · rename_i hi; exact ⟨.refl w h, hi, fun _ hf => hf⟩
  · obtain ⟨h1, h2, h4⟩ := w.freeBorrowers_spec h hp r
    have hs := (w.freeBorrowers r).settled_materialiseOne h1.borrows (h1.same.placed hp) r hr h2
    exact ⟨h1.trans hs, Wave.isIdentity_materialiseOne _ h1.borrows r hr,
      fun p hf => (w.freeBorrowers r).free_install h1.borrows r p _ _ _ _ hr (h4 p hf)⟩

/-! ## Results (R38) -/

theorem Wave.install_deadsrc (w : Wave) (r : Nat) (elems : Row) (loc : LocMap) (tag : Tag) (bad : List Nat) :
    (w.install r elems loc tag bad).deadsrc = w.deadsrc := by
  unfold Wave.install Wave.setReg Wave.setBad Wave.unborrow
  dsimp only
  split <;> rfl

theorem Wave.foldl_deadsrc {α : Type} (f : Wave → α → Wave) (hf : ∀ w a, (f w a).deadsrc = w.deadsrc) (l : List α) :
    ∀ w : Wave, (l.foldl f w).deadsrc = w.deadsrc := by
  induction l with
  | nil => exact fun _ => rfl
  | cons a l ih => exact fun w => (ih _).trans (hf w a)

theorem Wave.materialise_deadsrc (w : Wave) (r : Nat) : (w.materialise r).deadsrc = w.deadsrc := by
  unfold Wave.materialise
  split
  · rfl
  · exact (Wave.install_deadsrc _ _ _ _ _ _).trans (Wave.foldl_deadsrc _ (fun _ _ => Wave.install_deadsrc _ _ _ _ _ _) _ _)

/-- A register result leaves PATHS.DEADSRC as it was. -/
theorem Wave.alu_deadsrc (w : Wave) (cov : Mask) (op : AluOp) : (w.alu cov op).deadsrc = w.deadsrc := by
  unfold Wave.alu
  split
  · rfl
  · refine (Wave.foldl_deadsrc _ (fun _ _ => Wave.install_deadsrc _ _ _ _ _ _) _ _).trans
      (Wave.foldl_deadsrc _ (fun v d => ?_) _ _)
    have hb : (v.freeBorrowers d).deadsrc = v.deadsrc :=
      Wave.foldl_deadsrc _ (fun _ _ => Wave.install_deadsrc _ _ _ _ _ _) _ _
    dsimp only
    split
    · exact hb
    · exact (Wave.materialise_deadsrc _ _).trans hb

/-- The destinations made ready for a write: none has a borrower, and under partial cover each has the identity lay. -/
theorem Wave.prepareDests_spec (cov : Mask) (ds : List Nat) : ∀ (w : Wave), w.Borrows → w.Placed → (∀ d ∈ ds, d < 256) →
    w.Settled (w.prepareDests cov ds) ∧ (∀ d ∈ ds, (w.prepareDests cov ds).Free d) ∧
      (∀ p, w.Free p → (w.prepareDests cov ds).Free p) ∧
      (w.full cov = false → ∀ d ∈ ds, (w.prepareDests cov ds).isIdentity d = true) := by
  induction ds with
  | nil => intro w h _ _; exact ⟨.refl w h, by simp, fun _ hp => hp, by simp⟩
  | cons d ds ih =>
    intro w h hp hlt
    obtain ⟨a1, a2, a3⟩ := w.freeBorrowers_spec h hp d
    have key : ∃ w2, w.prepareDests cov (d :: ds) = w2.prepareDests cov ds ∧ w.Settled w2 ∧ w2.Free d ∧
        (∀ p, w.Free p → w2.Free p) ∧ (w.full cov = false → w2.isIdentity d = true) := by
      by_cases hf : w.full cov = true
      · refine ⟨w.freeBorrowers d, ?_, a1, a2, a3, fun e => by simp [hf] at e⟩
        simp [Wave.prepareDests, a1.same.full, hf]
      · obtain ⟨b1, b2, b3⟩ := (w.freeBorrowers d).materialise_spec a1.borrows (a1.same.placed hp) d (hlt d (List.mem_cons_self ..))
        refine ⟨(w.freeBorrowers d).materialise d, ?_, a1.trans b1, b3 d a2, fun p hq => b3 p (a3 p hq), fun _ => b2⟩
        simp [Wave.prepareDests, a1.same.full, hf]
    obtain ⟨w2, e, s2, f2, g2, i2⟩ := key
    obtain ⟨c1, c2, c3, c4⟩ := ih w2 s2.borrows (s2.same.placed hp) (fun x hx => hlt x (List.mem_cons_of_mem _ hx))
    rw [e]
    refine ⟨s2.trans c1, fun x hx => ?_, fun p hq => c3 p (g2 p hq), fun hn x hx => ?_⟩
    · rcases List.mem_cons.1 hx with hx | hx
      · subst hx; exact c3 _ f2
      · exact c2 x hx
    · rcases List.mem_cons.1 hx with hx | hx
      · subst hx; exact c1.ident _ (i2 hn)
      · exact c4 (by rw [s2.same.full]; exact hn) x hx

/-- Writes performed one after another: each destination reads as its write says, every other register as before. -/
theorem Wave.commit_spec (ws : List Write) : ∀ (w : Wave), w.Borrows → (∀ x ∈ ws, x.reg < 256) → (∀ x ∈ ws, w.Free x.reg) →
    (ws.map Write.reg).Nodup →
    (w.commit ws).Borrows ∧ w.SameBut (w.commit ws) ∧
      (∀ q, q ∉ ws.map Write.reg → ∀ t, (w.commit ws).read q t = w.read q t) ∧
      (∀ x ∈ ws, ∀ t : Lane, (w.commit ws).read x.reg t = match x.loc[t] with | none => 0 | some e => x.elems[e]) := by
  induction ws with
  | nil => intro w h _ _ _; exact ⟨h, .refl w, fun _ _ _ => rfl, by simp⟩
  | cons x ws ih =>
    intro w h hlt hf hn
    have hx := hlt x (List.mem_cons_self ..)
    have hfx := hf x (List.mem_cons_self ..)
    rw [List.map_cons, List.nodup_cons] at hn
    obtain ⟨c1, c2, c3, c4⟩ := ih (w.install x.reg x.elems x.loc x.tag x.bad) (w.borrows_install h _ _ _ _ _ hx)
      (fun y hy => hlt y (List.mem_cons_of_mem _ hy))
      (fun y hy => w.free_install h _ _ _ _ _ _ hx (hf y (List.mem_cons_of_mem _ hy))) hn.2
    refine ⟨c1, (w.sameBut_install _ _ _ _ _).trans c2, fun q hq t => ?_, fun y hy t => ?_⟩
    · rw [List.map_cons, List.mem_cons, not_or] at hq
      exact (c3 q hq.2 t).trans (w.read_install_other h _ _ _ _ _ _ hx hfx hq.1 t)
    · rcases List.mem_cons.1 hy with hy | hy
      · subst hy
        exact (c3 _ hn.1 t).trans (w.read_install_same h _ _ _ _ _ hx t)
      · exact c4 y hy t

/-- A register result (R16, R38): the shape and everything else of the wave is kept; no other register reads differently; an uncovered
live thread keeps its destinations; a covered thread reads the operation of what it read, where none of its sources' entries is VOID. -/
theorem Wave.alu_spec (w : Wave) (cov : Mask) (op : AluOp) (h : w.Borrows) (hp : w.Placed) (hd : op.dests.Nodup)
    (hlt : ∀ d ∈ op.dests, d < 256) (hcov : ∀ t, Mask.has cov t = true → Mask.has w.alive t = true)
    (hf : op.keep = true → ∀ a b xs, op.f a xs = op.f b xs)
    (hu : ∀ r, (w.reg r).tag = .uniform → ∀ t, Mask.has w.alive t = true → w.read r t = w.read r (Mask.lowest w.alive)) :
    (w.alu cov op).Borrows ∧ w.SameBut (w.alu cov op) ∧
      (∀ q, q ∉ op.dests → ∀ t, Mask.has w.alive t = true → (w.alu cov op).read q t = w.read q t) ∧
      (∀ d ∈ op.dests, ∀ t, Mask.has w.alive t = true → Mask.has cov t = false → (w.alu cov op).read d t = w.read d t) ∧
      (∀ (i d : Nat), op.dests[i]? = some d → ∀ t : Lane, Mask.has cov t = true →
        (op.keep = true → ∀ r ∈ op.srcs, (w.reg r).loc[t] ≠ none) →
        (w.alu cov op).read d t = ((op.f t (op.srcs.map (fun r => w.read r t))).vals)[i]?.getD 0) := by
  unfold Wave.alu
  by_cases hc : cov = 0
  · subst hc
    rw [if_pos rfl]
    refine ⟨h, .refl w, fun _ _ _ _ => rfl, fun _ _ _ _ _ => rfl, fun i d _ t ht => ?_⟩
    simp [Mask.has] at ht
  rw [if_neg hc]
  obtain ⟨p1, p2, _, p4⟩ := w.prepareDests_spec cov op.dests h hp hlt
  generalize w.prepareDests cov op.dests = v at p1 p2 p4
  have hal : v.alive = w.alive := p1.same.alive
  have hfull : v.full cov = w.full cov := p1.same.full cov
  have hreg : (v.aluWrites cov op).map Write.reg = op.dests := by
    unfold Wave.aluWrites
    dsimp only
    split <;> · rw [List.map_map]; exact List.zipIdx_map_fst ..
  have hmem : ∀ x ∈ v.aluWrites cov op, x.reg ∈ op.dests := fun x hx => hreg ▸ List.mem_map_of_mem hx
  obtain ⟨c1, c2, c3, c4⟩ := Wave.commit_spec (v.aluWrites cov op) v p1.borrows (fun x hx => hlt _ (hmem x hx))
    (fun x hx => p2 _ (hmem x hx)) (hreg ▸ hd)
  rw [hreg] at c3
  refine ⟨c1, p1.same.trans c2, fun q hq t ht => (c3 q hq t).trans (p1.read q t ht), fun d hd' t ht hn => ?_,
    fun i d hi t ht hv => ?_⟩
  · have hpart : w.full cov = false := by
      rw [← Bool.not_eq_true]; intro hfu
      have h0 : w.alive &&& ~~~cov = 0 := by simpa [Wave.full] using hfu
      have : (w.alive &&& ~~~cov).getLsbD t.val = true := by
        simp only [Mask.has] at ht hn
        simp only [BitVec.getLsbD_and, BitVec.getLsbD_not, ht, hn, t.isLt, decide_true, Bool.not_false, Bool.and_true]
      rw [h0] at this; simp at this
    obtain ⟨i, hi⟩ := List.getElem?_of_mem hd'
    have hx : (⟨d, Vector.ofFn (fun t => if Mask.has cov t then ((op.f t (op.srcs.map (fun r => v.read r t))).vals)[i]?.getD 0
        else (v.reg d).elems[t]), v.ident, Tag.none, v.badOutside cov d⟩ : Write) ∈ v.aluWrites cov op := by
      unfold Wave.aluWrites
      simp only [hfull, hpart, Bool.false_and, Bool.false_eq_true, if_false]
      refine List.mem_map.2 ⟨(d, i), ?_, rfl⟩
      rw [List.mem_zipIdx_iff_getElem?]; exact hi
    rw [c4 _ hx t]
    have hid : v.ident[t] = some t := p1.same.placed hp t (hal ▸ ht)
    simp only [hid]
    have hv := p4 hpart d hd'
    simp only [Wave.isIdentity, Bool.and_eq_true, beq_iff_eq, Option.isNone_iff_eq_none] at hv
    rw [← p1.read d t ht]
    unfold Wave.read Wave.baseOf
    rw [hv.1, hv.2, hid]
    simp [hn]
  · have hta := hcov t ht
    by_cases hk : w.full cov = true ∧ op.keep = true ∧ (v.commonLay op.srcs).isSome = true
    · obtain ⟨hfu, hkeep, hs⟩ := hk
      obtain ⟨loc, hl⟩ := Option.isSome_iff_exists.1 hs
      have hx : (⟨d, Vector.ofFn (fun e => if v.keepsElem loc e then (v.reg d).elems[e]
          else ((op.f e (op.srcs.map (fun r => v.elemOf r e))).vals)[i]?.getD 0), loc,
          op.rule (op.srcs.map (fun r => (v.reg r).tag)), v.badKept loc op.srcs d⟩ : Write) ∈ v.aluWrites cov op := by
        unfold Wave.aluWrites
        simp only [hfull, hfu, hkeep, Bool.and_true, if_true, hl]
        refine List.mem_map.2 ⟨(d, i), ?_, rfl⟩
        rw [List.mem_zipIdx_iff_getElem?]; exact hi
      rw [c4 _ hx t]
      have hall : ∀ r ∈ v.compared op.srcs, (v.reg r).loc = loc := by
        unfold Wave.commonLay at hl
        split at hl
        · simp at hl
        · rename_i r0 rest hcmp
          split at hl
          · rename_i hr
            simp only [Option.some.injEq] at hl
            intro r hr'
            rw [hcmp] at hr'
            rcases List.mem_cons.1 hr' with e | e
            · rw [e]; exact hl
            · rw [List.all_eq_true] at hr
              have := hr r e
              rw [beq_iff_eq] at this
              rw [this]; exact hl
          · simp at hl
      have hcne : v.compared op.srcs ≠ [] := by
        intro e; unfold Wave.commonLay at hl; rw [e] at hl; simp at hl
      obtain ⟨r0, hr0⟩ := List.exists_mem_of_ne_nil _ hcne
      have hr0s : r0 ∈ op.srcs := (List.mem_filter.1 hr0).1
      have hne : loc[t] ≠ none := by
        rw [← hall r0 hr0]; exact p1.entry r0 t hta (hv hkeep r0 hr0s)
      obtain ⟨e, he⟩ := Option.ne_none_iff_exists'.1 hne
      simp only [he]
      have hkf : v.keepsElem loc e = false := by
        unfold Wave.keepsElem
        rw [Bool.and_eq_false_iff]; right
        rw [Bool.not_eq_false', List.any_eq_true]
        refine ⟨t, ?_, by simpa using he⟩
        simp [Mask.lanes, hal, hta]
      simp only [Fin.getElem_fin, Vector.getElem_ofFn, hkf, Bool.false_eq_true, if_false]
      rw [hf hkeep _ t]
      refine congrArg (fun l => ((op.f t l).vals)[i]?.getD 0) (List.map_congr_left (fun r hr => ?_))
      rw [← p1.read r t hta]
      by_cases hun : (v.reg r).tag = .uniform
      · have hw : (w.reg r).tag = .uniform := by rw [← p1.tag r]; exact hun
        have h1 : v.elemOf r e = v.read r (Mask.lowest v.alive) := by unfold Wave.elemOf; rw [if_pos (by simp [hun])]
        have hlow : Mask.has w.alive (Mask.lowest w.alive) = true := by
          have hmem' : t ∈ Mask.lanes w.alive := by simp [Mask.lanes, hta]
          have : Mask.lowest w.alive ∈ Mask.lanes w.alive := by
            unfold Mask.lowest
            cases hL : Mask.lanes w.alive with
            | nil => rw [hL] at hmem'; simp at hmem'
            | cons a as => simp
          simpa [Mask.lanes] using this
        have h2 := hu r hw t hta
        show v.elemOf r e = _
        rw [h1, hal, p1.read r _ hlow, p1.read r t hta, h2]
      · have hrc : r ∈ v.compared op.srcs := List.mem_filter.2 ⟨hr, by simpa using hun⟩
        have h1 : v.elemOf r e = (v.reg (v.baseOf r)).elems[e] := by unfold Wave.elemOf; rw [if_neg (by simp [hun])]
        show v.elemOf r e = _
        rw [h1]
        unfold Wave.read
        rw [hall r hrc, he]
    · have hx : (⟨d, Vector.ofFn (fun t => if Mask.has cov t then ((op.f t (op.srcs.map (fun r => v.read r t))).vals)[i]?.getD 0
          else (v.reg d).elems[t]), v.ident,
          if v.full cov then op.rule (op.srcs.map (fun r => (v.reg r).tag)) else Tag.none, v.badOutside cov d⟩ : Write) ∈
          v.aluWrites cov op := by
        unfold Wave.aluWrites
        have hn : (if (v.full cov && op.keep) = true then v.commonLay op.srcs else none) = none := by
          split
          · rename_i hh
            rw [Bool.and_eq_true, hfull] at hh
            cases hcl : v.commonLay op.srcs with
            | none => rfl
            | some l => exact absurd ⟨hh.1, hh.2, by simp [hcl]⟩ hk
          · rfl
        simp only [hn]
        refine List.mem_map.2 ⟨(d, i), ?_, rfl⟩
        rw [List.mem_zipIdx_iff_getElem?]; exact hi
      rw [c4 _ hx t]
      have hid : v.ident[t] = some t := p1.same.placed hp t (hal ▸ hta)
      simp only [hid, Fin.getElem_fin, Vector.getElem_ofFn, ht, if_true]
      exact congrArg (fun l => ((op.f t l).vals)[i]?.getD 0) (List.map_congr_left (fun r _ => p1.read r t hta))

end Sys2Proof.Machine
end

