-- ==== Sys2Proof/Laws/State.lean ====
section
/-! SUPPORT. What each named update of the state leaves in each field: one equation per field, so that no later proof unfolds a
record update. -/

namespace Sys2Proof.Machine

/-! ## `State.modGroup` -/

@[simp] theorem State.modGroup_mem (s : State) (ctx : Nat) (f : Group → Group) : (s.modGroup ctx f).mem = s.mem := rfl
@[simp] theorem State.modGroup_hostMem (s : State) (ctx : Nat) (f : Group → Group) : (s.modGroup ctx f).hostMem = s.hostMem := rfl
@[simp] theorem State.modGroup_lineKeys (s : State) (ctx : Nat) (f : Group → Group) : (s.modGroup ctx f).lineKeys = s.lineKeys := rfl
@[simp] theorem State.modGroup_badLines (s : State) (ctx : Nat) (f : Group → Group) : (s.modGroup ctx f).badLines = s.badLines := rfl
@[simp] theorem State.modGroup_badHost (s : State) (ctx : Nat) (f : Group → Group) : (s.modGroup ctx f).badHost = s.badHost := rfl
@[simp] theorem State.modGroup_homeLines (s : State) (ctx : Nat) (f : Group → Group) : (s.modGroup ctx f).homeLines = s.homeLines := rfl
@[simp] theorem State.modGroup_gens (s : State) (ctx : Nat) (f : Group → Group) : (s.modGroup ctx f).gens = s.gens := rfl
@[simp] theorem State.modGroup_bumps (s : State) (ctx : Nat) (f : Group → Group) : (s.modGroup ctx f).bumps = s.bumps := rfl
@[simp] theorem State.modGroup_cores (s : State) (ctx : Nat) (f : Group → Group) : (s.modGroup ctx f).cores = s.cores := rfl
@[simp] theorem State.modGroup_clusters (s : State) (ctx : Nat) (f : Group → Group) : (s.modGroup ctx f).clusters = s.clusters := rfl
@[simp] theorem State.modGroup_parts (s : State) (ctx : Nat) (f : Group → Group) : (s.modGroup ctx f).parts = s.parts := rfl
@[simp] theorem State.modGroup_groups (s : State) (ctx : Nat) (f : Group → Group) : (s.modGroup ctx f).groups = Map.modify s.groups ctx f := rfl
@[simp] theorem State.modGroup_gangs (s : State) (ctx : Nat) (f : Group → Group) : (s.modGroup ctx f).gangs = s.gangs := rfl
@[simp] theorem State.modGroup_launches (s : State) (ctx : Nat) (f : Group → Group) : (s.modGroup ctx f).launches = s.launches := rfl
@[simp] theorem State.modGroup_saved (s : State) (ctx : Nat) (f : Group → Group) : (s.modGroup ctx f).saved = s.saved := rfl
@[simp] theorem State.modGroup_faultRecs (s : State) (ctx : Nat) (f : Group → Group) : (s.modGroup ctx f).faultRecs = s.faultRecs := rfl
@[simp] theorem State.modGroup_ctxCount (s : State) (ctx : Nat) (f : Group → Group) : (s.modGroup ctx f).ctxCount = s.ctxCount := rfl
@[simp] theorem State.modGroup_ctxEnded (s : State) (ctx : Nat) (f : Group → Group) : (s.modGroup ctx f).ctxEnded = s.ctxEnded := rfl
@[simp] theorem State.modGroup_ports (s : State) (ctx : Nat) (f : Group → Group) : (s.modGroup ctx f).ports = s.ports := rfl
@[simp] theorem State.modGroup_remote (s : State) (ctx : Nat) (f : Group → Group) : (s.modGroup ctx f).remote = s.remote := rfl
@[simp] theorem State.modGroup_linkKeys (s : State) (ctx : Nat) (f : Group → Group) : (s.modGroup ctx f).linkKeys = s.linkKeys := rfl
@[simp] theorem State.modGroup_sprays (s : State) (ctx : Nat) (f : Group → Group) : (s.modGroup ctx f).sprays = s.sprays := rfl
@[simp] theorem State.modGroup_colls (s : State) (ctx : Nat) (f : Group → Group) : (s.modGroup ctx f).colls = s.colls := rfl
@[simp] theorem State.modGroup_early (s : State) (ctx : Nat) (f : Group → Group) : (s.modGroup ctx f).early = s.early := rfl
@[simp] theorem State.modGroup_splice (s : State) (ctx : Nat) (f : Group → Group) : (s.modGroup ctx f).splice = s.splice := rfl
@[simp] theorem State.modGroup_tests (s : State) (ctx : Nat) (f : Group → Group) : (s.modGroup ctx f).tests = s.tests := rfl
@[simp] theorem State.modGroup_devId (s : State) (ctx : Nat) (f : Group → Group) : (s.modGroup ctx f).devId = s.devId := rfl
@[simp] theorem State.modGroup_devState (s : State) (ctx : Nat) (f : Group → Group) : (s.modGroup ctx f).devState = s.devState := rfl
@[simp] theorem State.modGroup_spdm (s : State) (ctx : Nat) (f : Group → Group) : (s.modGroup ctx f).spdm = s.spdm := rfl
@[simp] theorem State.modGroup_sessions (s : State) (ctx : Nat) (f : Group → Group) : (s.modGroup ctx f).sessions = s.sessions := rfl
@[simp] theorem State.modGroup_clusterSel (s : State) (ctx : Nat) (f : Group → Group) : (s.modGroup ctx f).clusterSel = s.clusterSel := rfl
@[simp] theorem State.modGroup_epoch (s : State) (ctx : Nat) (f : Group → Group) : (s.modGroup ctx f).epoch = s.epoch := rfl
@[simp] theorem State.modGroup_floors (s : State) (ctx : Nat) (f : Group → Group) : (s.modGroup ctx f).floors = s.floors := rfl
@[simp] theorem State.modGroup_versions (s : State) (ctx : Nat) (f : Group → Group) : (s.modGroup ctx f).versions = s.versions := rfl
@[simp] theorem State.modGroup_staged (s : State) (ctx : Nat) (f : Group → Group) : (s.modGroup ctx f).staged = s.staged := rfl
@[simp] theorem State.modGroup_trim (s : State) (ctx : Nat) (f : Group → Group) : (s.modGroup ctx f).trim = s.trim := rfl
@[simp] theorem State.modGroup_now (s : State) (ctx : Nat) (f : Group → Group) : (s.modGroup ctx f).now = s.now := rfl
@[simp] theorem State.modGroup_agenda (s : State) (ctx : Nat) (f : Group → Group) : (s.modGroup ctx f).agenda = s.agenda := rfl
@[simp] theorem State.modGroup_cur (s : State) (ctx : Nat) (f : Group → Group) : (s.modGroup ctx f).cur = s.cur := rfl
@[simp] theorem State.modGroup_deferred (s : State) (ctx : Nat) (f : Group → Group) : (s.modGroup ctx f).deferred = s.deferred := rfl
@[simp] theorem State.modGroup_fresh (s : State) (ctx : Nat) (f : Group → Group) : (s.modGroup ctx f).fresh = s.fresh := rfl
@[simp] theorem State.modGroup_nextId (s : State) (ctx : Nat) (f : Group → Group) : (s.modGroup ctx f).nextId = s.nextId := rfl
@[simp] theorem State.modGroup_sent (s : State) (ctx : Nat) (f : Group → Group) : (s.modGroup ctx f).sent = s.sent := rfl
@[simp] theorem State.modGroup_history (s : State) (ctx : Nat) (f : Group → Group) : (s.modGroup ctx f).history = s.history := rfl
@[simp] theorem State.modGroup_beyond (s : State) (ctx : Nat) (f : Group → Group) : (s.modGroup ctx f).beyond = s.beyond := rfl

/-! ## `State.modWave` -/

@[simp] theorem State.modWave_mem (s : State) (ctx wv : Nat) (f : Wave → Wave) : (s.modWave ctx wv f).mem = s.mem := rfl
@[simp] theorem State.modWave_hostMem (s : State) (ctx wv : Nat) (f : Wave → Wave) : (s.modWave ctx wv f).hostMem = s.hostMem := rfl
@[simp] theorem State.modWave_lineKeys (s : State) (ctx wv : Nat) (f : Wave → Wave) : (s.modWave ctx wv f).lineKeys = s.lineKeys := rfl
@[simp] theorem State.modWave_badLines (s : State) (ctx wv : Nat) (f : Wave → Wave) : (s.modWave ctx wv f).badLines = s.badLines := rfl
@[simp] theorem State.modWave_badHost (s : State) (ctx wv : Nat) (f : Wave → Wave) : (s.modWave ctx wv f).badHost = s.badHost := rfl
@[simp] theorem State.modWave_homeLines (s : State) (ctx wv : Nat) (f : Wave → Wave) : (s.modWave ctx wv f).homeLines = s.homeLines := rfl
@[simp] theorem State.modWave_gens (s : State) (ctx wv : Nat) (f : Wave → Wave) : (s.modWave ctx wv f).gens = s.gens := rfl
@[simp] theorem State.modWave_bumps (s : State) (ctx wv : Nat) (f : Wave → Wave) : (s.modWave ctx wv f).bumps = s.bumps := rfl
@[simp] theorem State.modWave_cores (s : State) (ctx wv : Nat) (f : Wave → Wave) : (s.modWave ctx wv f).cores = s.cores := rfl
@[simp] theorem State.modWave_clusters (s : State) (ctx wv : Nat) (f : Wave → Wave) : (s.modWave ctx wv f).clusters = s.clusters := rfl
@[simp] theorem State.modWave_parts (s : State) (ctx wv : Nat) (f : Wave → Wave) : (s.modWave ctx wv f).parts = s.parts := rfl
@[simp] theorem State.modWave_groups (s : State) (ctx wv : Nat) (f : Wave → Wave) : (s.modWave ctx wv f).groups = Map.modify s.groups ctx (fun g => { g with waves := g.waves.modify wv f }) := rfl
@[simp] theorem State.modWave_gangs (s : State) (ctx wv : Nat) (f : Wave → Wave) : (s.modWave ctx wv f).gangs = s.gangs := rfl
@[simp] theorem State.modWave_launches (s : State) (ctx wv : Nat) (f : Wave → Wave) : (s.modWave ctx wv f).launches = s.launches := rfl
@[simp] theorem State.modWave_saved (s : State) (ctx wv : Nat) (f : Wave → Wave) : (s.modWave ctx wv f).saved = s.saved := rfl
@[simp] theorem State.modWave_faultRecs (s : State) (ctx wv : Nat) (f : Wave → Wave) : (s.modWave ctx wv f).faultRecs = s.faultRecs := rfl
@[simp] theorem State.modWave_ctxCount (s : State) (ctx wv : Nat) (f : Wave → Wave) : (s.modWave ctx wv f).ctxCount = s.ctxCount := rfl
@[simp] theorem State.modWave_ctxEnded (s : State) (ctx wv : Nat) (f : Wave → Wave) : (s.modWave ctx wv f).ctxEnded = s.ctxEnded := rfl
@[simp] theorem State.modWave_ports (s : State) (ctx wv : Nat) (f : Wave → Wave) : (s.modWave ctx wv f).ports = s.ports := rfl
@[simp] theorem State.modWave_remote (s : State) (ctx wv : Nat) (f : Wave → Wave) : (s.modWave ctx wv f).remote = s.remote := rfl
@[simp] theorem State.modWave_linkKeys (s : State) (ctx wv : Nat) (f : Wave → Wave) : (s.modWave ctx wv f).linkKeys = s.linkKeys := rfl
@[simp] theorem State.modWave_sprays (s : State) (ctx wv : Nat) (f : Wave → Wave) : (s.modWave ctx wv f).sprays = s.sprays := rfl
@[simp] theorem State.modWave_colls (s : State) (ctx wv : Nat) (f : Wave → Wave) : (s.modWave ctx wv f).colls = s.colls := rfl
@[simp] theorem State.modWave_early (s : State) (ctx wv : Nat) (f : Wave → Wave) : (s.modWave ctx wv f).early = s.early := rfl
@[simp] theorem State.modWave_splice (s : State) (ctx wv : Nat) (f : Wave → Wave) : (s.modWave ctx wv f).splice = s.splice := rfl
@[simp] theorem State.modWave_tests (s : State) (ctx wv : Nat) (f : Wave → Wave) : (s.modWave ctx wv f).tests = s.tests := rfl
@[simp] theorem State.modWave_devId (s : State) (ctx wv : Nat) (f : Wave → Wave) : (s.modWave ctx wv f).devId = s.devId := rfl
@[simp] theorem State.modWave_devState (s : State) (ctx wv : Nat) (f : Wave → Wave) : (s.modWave ctx wv f).devState = s.devState := rfl
@[simp] theorem State.modWave_spdm (s : State) (ctx wv : Nat) (f : Wave → Wave) : (s.modWave ctx wv f).spdm = s.spdm := rfl
@[simp] theorem State.modWave_sessions (s : State) (ctx wv : Nat) (f : Wave → Wave) : (s.modWave ctx wv f).sessions = s.sessions := rfl
@[simp] theorem State.modWave_clusterSel (s : State) (ctx wv : Nat) (f : Wave → Wave) : (s.modWave ctx wv f).clusterSel = s.clusterSel := rfl
@[simp] theorem State.modWave_epoch (s : State) (ctx wv : Nat) (f : Wave → Wave) : (s.modWave ctx wv f).epoch = s.epoch := rfl
@[simp] theorem State.modWave_floors (s : State) (ctx wv : Nat) (f : Wave → Wave) : (s.modWave ctx wv f).floors = s.floors := rfl
@[simp] theorem State.modWave_versions (s : State) (ctx wv : Nat) (f : Wave → Wave) : (s.modWave ctx wv f).versions = s.versions := rfl
@[simp] theorem State.modWave_staged (s : State) (ctx wv : Nat) (f : Wave → Wave) : (s.modWave ctx wv f).staged = s.staged := rfl
@[simp] theorem State.modWave_trim (s : State) (ctx wv : Nat) (f : Wave → Wave) : (s.modWave ctx wv f).trim = s.trim := rfl
@[simp] theorem State.modWave_now (s : State) (ctx wv : Nat) (f : Wave → Wave) : (s.modWave ctx wv f).now = s.now := rfl
@[simp] theorem State.modWave_agenda (s : State) (ctx wv : Nat) (f : Wave → Wave) : (s.modWave ctx wv f).agenda = s.agenda := rfl
@[simp] theorem State.modWave_cur (s : State) (ctx wv : Nat) (f : Wave → Wave) : (s.modWave ctx wv f).cur = s.cur := rfl
@[simp] theorem State.modWave_deferred (s : State) (ctx wv : Nat) (f : Wave → Wave) : (s.modWave ctx wv f).deferred = s.deferred := rfl
@[simp] theorem State.modWave_fresh (s : State) (ctx wv : Nat) (f : Wave → Wave) : (s.modWave ctx wv f).fresh = s.fresh := rfl
@[simp] theorem State.modWave_nextId (s : State) (ctx wv : Nat) (f : Wave → Wave) : (s.modWave ctx wv f).nextId = s.nextId := rfl
@[simp] theorem State.modWave_sent (s : State) (ctx wv : Nat) (f : Wave → Wave) : (s.modWave ctx wv f).sent = s.sent := rfl
@[simp] theorem State.modWave_history (s : State) (ctx wv : Nat) (f : Wave → Wave) : (s.modWave ctx wv f).history = s.history := rfl
@[simp] theorem State.modWave_beyond (s : State) (ctx wv : Nat) (f : Wave → Wave) : (s.modWave ctx wv f).beyond = s.beyond := rfl

/-! ## `State.putWave` -/

@[simp] theorem State.putWave_mem (s : State) (h : Here) (w : Wave) : (s.putWave h w).mem = s.mem := rfl
@[simp] theorem State.putWave_hostMem (s : State) (h : Here) (w : Wave) : (s.putWave h w).hostMem = s.hostMem := rfl
@[simp] theorem State.putWave_lineKeys (s : State) (h : Here) (w : Wave) : (s.putWave h w).lineKeys = s.lineKeys := rfl
@[simp] theorem State.putWave_badLines (s : State) (h : Here) (w : Wave) : (s.putWave h w).badLines = s.badLines := rfl
@[simp] theorem State.putWave_badHost (s : State) (h : Here) (w : Wave) : (s.putWave h w).badHost = s.badHost := rfl
@[simp] theorem State.putWave_homeLines (s : State) (h : Here) (w : Wave) : (s.putWave h w).homeLines = s.homeLines := rfl
@[simp] theorem State.putWave_gens (s : State) (h : Here) (w : Wave) : (s.putWave h w).gens = s.gens := rfl
@[simp] theorem State.putWave_bumps (s : State) (h : Here) (w : Wave) : (s.putWave h w).bumps = s.bumps := rfl
@[simp] theorem State.putWave_cores (s : State) (h : Here) (w : Wave) : (s.putWave h w).cores = s.cores := rfl
@[simp] theorem State.putWave_clusters (s : State) (h : Here) (w : Wave) : (s.putWave h w).clusters = s.clusters := rfl
@[simp] theorem State.putWave_parts (s : State) (h : Here) (w : Wave) : (s.putWave h w).parts = s.parts := rfl
@[simp] theorem State.putWave_groups (s : State) (h : Here) (w : Wave) : (s.putWave h w).groups = Map.modify s.groups h.ctx (fun g => g.setWave h.wv w) := rfl
@[simp] theorem State.putWave_gangs (s : State) (h : Here) (w : Wave) : (s.putWave h w).gangs = s.gangs := rfl
@[simp] theorem State.putWave_launches (s : State) (h : Here) (w : Wave) : (s.putWave h w).launches = s.launches := rfl
@[simp] theorem State.putWave_saved (s : State) (h : Here) (w : Wave) : (s.putWave h w).saved = s.saved := rfl
@[simp] theorem State.putWave_faultRecs (s : State) (h : Here) (w : Wave) : (s.putWave h w).faultRecs = s.faultRecs := rfl
@[simp] theorem State.putWave_ctxCount (s : State) (h : Here) (w : Wave) : (s.putWave h w).ctxCount = s.ctxCount := rfl
@[simp] theorem State.putWave_ctxEnded (s : State) (h : Here) (w : Wave) : (s.putWave h w).ctxEnded = s.ctxEnded := rfl
@[simp] theorem State.putWave_ports (s : State) (h : Here) (w : Wave) : (s.putWave h w).ports = s.ports := rfl
@[simp] theorem State.putWave_remote (s : State) (h : Here) (w : Wave) : (s.putWave h w).remote = s.remote := rfl
@[simp] theorem State.putWave_linkKeys (s : State) (h : Here) (w : Wave) : (s.putWave h w).linkKeys = s.linkKeys := rfl
@[simp] theorem State.putWave_sprays (s : State) (h : Here) (w : Wave) : (s.putWave h w).sprays = s.sprays := rfl
@[simp] theorem State.putWave_colls (s : State) (h : Here) (w : Wave) : (s.putWave h w).colls = s.colls := rfl
@[simp] theorem State.putWave_early (s : State) (h : Here) (w : Wave) : (s.putWave h w).early = s.early := rfl
@[simp] theorem State.putWave_splice (s : State) (h : Here) (w : Wave) : (s.putWave h w).splice = s.splice := rfl
@[simp] theorem State.putWave_tests (s : State) (h : Here) (w : Wave) : (s.putWave h w).tests = s.tests := rfl
@[simp] theorem State.putWave_devId (s : State) (h : Here) (w : Wave) : (s.putWave h w).devId = s.devId := rfl
@[simp] theorem State.putWave_devState (s : State) (h : Here) (w : Wave) : (s.putWave h w).devState = s.devState := rfl
@[simp] theorem State.putWave_spdm (s : State) (h : Here) (w : Wave) : (s.putWave h w).spdm = s.spdm := rfl
@[simp] theorem State.putWave_sessions (s : State) (h : Here) (w : Wave) : (s.putWave h w).sessions = s.sessions := rfl
@[simp] theorem State.putWave_clusterSel (s : State) (h : Here) (w : Wave) : (s.putWave h w).clusterSel = s.clusterSel := rfl
@[simp] theorem State.putWave_epoch (s : State) (h : Here) (w : Wave) : (s.putWave h w).epoch = s.epoch := rfl
@[simp] theorem State.putWave_floors (s : State) (h : Here) (w : Wave) : (s.putWave h w).floors = s.floors := rfl
@[simp] theorem State.putWave_versions (s : State) (h : Here) (w : Wave) : (s.putWave h w).versions = s.versions := rfl
@[simp] theorem State.putWave_staged (s : State) (h : Here) (w : Wave) : (s.putWave h w).staged = s.staged := rfl
@[simp] theorem State.putWave_trim (s : State) (h : Here) (w : Wave) : (s.putWave h w).trim = s.trim := rfl
@[simp] theorem State.putWave_now (s : State) (h : Here) (w : Wave) : (s.putWave h w).now = s.now := rfl
@[simp] theorem State.putWave_agenda (s : State) (h : Here) (w : Wave) : (s.putWave h w).agenda = s.agenda := rfl
@[simp] theorem State.putWave_cur (s : State) (h : Here) (w : Wave) : (s.putWave h w).cur = s.cur := rfl
@[simp] theorem State.putWave_deferred (s : State) (h : Here) (w : Wave) : (s.putWave h w).deferred = s.deferred := rfl
@[simp] theorem State.putWave_fresh (s : State) (h : Here) (w : Wave) : (s.putWave h w).fresh = s.fresh := rfl
@[simp] theorem State.putWave_nextId (s : State) (h : Here) (w : Wave) : (s.putWave h w).nextId = s.nextId := rfl
@[simp] theorem State.putWave_sent (s : State) (h : Here) (w : Wave) : (s.putWave h w).sent = s.sent := rfl
@[simp] theorem State.putWave_history (s : State) (h : Here) (w : Wave) : (s.putWave h w).history = s.history := rfl
@[simp] theorem State.putWave_beyond (s : State) (h : Here) (w : Wave) : (s.putWave h w).beyond = s.beyond := rfl

/-! ## `State.modCore` -/

@[simp] theorem State.modCore_mem (s : State) (c : Nat) (f : Core → Core) : (s.modCore c f).mem = s.mem := rfl
@[simp] theorem State.modCore_hostMem (s : State) (c : Nat) (f : Core → Core) : (s.modCore c f).hostMem = s.hostMem := rfl
@[simp] theorem State.modCore_lineKeys (s : State) (c : Nat) (f : Core → Core) : (s.modCore c f).lineKeys = s.lineKeys := rfl
@[simp] theorem State.modCore_badLines (s : State) (c : Nat) (f : Core → Core) : (s.modCore c f).badLines = s.badLines := rfl
@[simp] theorem State.modCore_badHost (s : State) (c : Nat) (f : Core → Core) : (s.modCore c f).badHost = s.badHost := rfl
@[simp] theorem State.modCore_homeLines (s : State) (c : Nat) (f : Core → Core) : (s.modCore c f).homeLines = s.homeLines := rfl
@[simp] theorem State.modCore_gens (s : State) (c : Nat) (f : Core → Core) : (s.modCore c f).gens = s.gens := rfl
@[simp] theorem State.modCore_bumps (s : State) (c : Nat) (f : Core → Core) : (s.modCore c f).bumps = s.bumps := rfl
@[simp] theorem State.modCore_cores (s : State) (c : Nat) (f : Core → Core) : (s.modCore c f).cores = vmod s.cores c f := rfl
@[simp] theorem State.modCore_clusters (s : State) (c : Nat) (f : Core → Core) : (s.modCore c f).clusters = s.clusters := rfl
@[simp] theorem State.modCore_parts (s : State) (c : Nat) (f : Core → Core) : (s.modCore c f).parts = s.parts := rfl
@[simp] theorem State.modCore_groups (s : State) (c : Nat) (f : Core → Core) : (s.modCore c f).groups = s.groups := rfl
@[simp] theorem State.modCore_gangs (s : State) (c : Nat) (f : Core → Core) : (s.modCore c f).gangs = s.gangs := rfl
@[simp] theorem State.modCore_launches (s : State) (c : Nat) (f : Core → Core) : (s.modCore c f).launches = s.launches := rfl
@[simp] theorem State.modCore_saved (s : State) (c : Nat) (f : Core → Core) : (s.modCore c f).saved = s.saved := rfl
@[simp] theorem State.modCore_faultRecs (s : State) (c : Nat) (f : Core → Core) : (s.modCore c f).faultRecs = s.faultRecs := rfl
@[simp] theorem State.modCore_ctxCount (s : State) (c : Nat) (f : Core → Core) : (s.modCore c f).ctxCount = s.ctxCount := rfl
@[simp] theorem State.modCore_ctxEnded (s : State) (c : Nat) (f : Core → Core) : (s.modCore c f).ctxEnded = s.ctxEnded := rfl
@[simp] theorem State.modCore_ports (s : State) (c : Nat) (f : Core → Core) : (s.modCore c f).ports = s.ports := rfl
@[simp] theorem State.modCore_remote (s : State) (c : Nat) (f : Core → Core) : (s.modCore c f).remote = s.remote := rfl
@[simp] theorem State.modCore_linkKeys (s : State) (c : Nat) (f : Core → Core) : (s.modCore c f).linkKeys = s.linkKeys := rfl
@[simp] theorem State.modCore_sprays (s : State) (c : Nat) (f : Core → Core) : (s.modCore c f).sprays = s.sprays := rfl
@[simp] theorem State.modCore_colls (s : State) (c : Nat) (f : Core → Core) : (s.modCore c f).colls = s.colls := rfl
@[simp] theorem State.modCore_early (s : State) (c : Nat) (f : Core → Core) : (s.modCore c f).early = s.early := rfl
@[simp] theorem State.modCore_splice (s : State) (c : Nat) (f : Core → Core) : (s.modCore c f).splice = s.splice := rfl
@[simp] theorem State.modCore_tests (s : State) (c : Nat) (f : Core → Core) : (s.modCore c f).tests = s.tests := rfl
@[simp] theorem State.modCore_devId (s : State) (c : Nat) (f : Core → Core) : (s.modCore c f).devId = s.devId := rfl
@[simp] theorem State.modCore_devState (s : State) (c : Nat) (f : Core → Core) : (s.modCore c f).devState = s.devState := rfl
@[simp] theorem State.modCore_spdm (s : State) (c : Nat) (f : Core → Core) : (s.modCore c f).spdm = s.spdm := rfl
@[simp] theorem State.modCore_sessions (s : State) (c : Nat) (f : Core → Core) : (s.modCore c f).sessions = s.sessions := rfl
@[simp] theorem State.modCore_clusterSel (s : State) (c : Nat) (f : Core → Core) : (s.modCore c f).clusterSel = s.clusterSel := rfl
@[simp] theorem State.modCore_epoch (s : State) (c : Nat) (f : Core → Core) : (s.modCore c f).epoch = s.epoch := rfl
@[simp] theorem State.modCore_floors (s : State) (c : Nat) (f : Core → Core) : (s.modCore c f).floors = s.floors := rfl
@[simp] theorem State.modCore_versions (s : State) (c : Nat) (f : Core → Core) : (s.modCore c f).versions = s.versions := rfl
@[simp] theorem State.modCore_staged (s : State) (c : Nat) (f : Core → Core) : (s.modCore c f).staged = s.staged := rfl
@[simp] theorem State.modCore_trim (s : State) (c : Nat) (f : Core → Core) : (s.modCore c f).trim = s.trim := rfl
@[simp] theorem State.modCore_now (s : State) (c : Nat) (f : Core → Core) : (s.modCore c f).now = s.now := rfl
@[simp] theorem State.modCore_agenda (s : State) (c : Nat) (f : Core → Core) : (s.modCore c f).agenda = s.agenda := rfl
@[simp] theorem State.modCore_cur (s : State) (c : Nat) (f : Core → Core) : (s.modCore c f).cur = s.cur := rfl
@[simp] theorem State.modCore_deferred (s : State) (c : Nat) (f : Core → Core) : (s.modCore c f).deferred = s.deferred := rfl
@[simp] theorem State.modCore_fresh (s : State) (c : Nat) (f : Core → Core) : (s.modCore c f).fresh = s.fresh := rfl
@[simp] theorem State.modCore_nextId (s : State) (c : Nat) (f : Core → Core) : (s.modCore c f).nextId = s.nextId := rfl
@[simp] theorem State.modCore_sent (s : State) (c : Nat) (f : Core → Core) : (s.modCore c f).sent = s.sent := rfl
@[simp] theorem State.modCore_history (s : State) (c : Nat) (f : Core → Core) : (s.modCore c f).history = s.history := rfl
@[simp] theorem State.modCore_beyond (s : State) (c : Nat) (f : Core → Core) : (s.modCore c f).beyond = s.beyond := rfl

/-! ## `State.modCluster` -/

@[simp] theorem State.modCluster_mem (s : State) (c : Nat) (f : Cluster → Cluster) : (s.modCluster c f).mem = s.mem := rfl
@[simp] theorem State.modCluster_hostMem (s : State) (c : Nat) (f : Cluster → Cluster) : (s.modCluster c f).hostMem = s.hostMem := rfl
@[simp] theorem State.modCluster_lineKeys (s : State) (c : Nat) (f : Cluster → Cluster) : (s.modCluster c f).lineKeys = s.lineKeys := rfl
@[simp] theorem State.modCluster_badLines (s : State) (c : Nat) (f : Cluster → Cluster) : (s.modCluster c f).badLines = s.badLines := rfl
@[simp] theorem State.modCluster_badHost (s : State) (c : Nat) (f : Cluster → Cluster) : (s.modCluster c f).badHost = s.badHost := rfl
@[simp] theorem State.modCluster_homeLines (s : State) (c : Nat) (f : Cluster → Cluster) : (s.modCluster c f).homeLines = s.homeLines := rfl
@[simp] theorem State.modCluster_gens (s : State) (c : Nat) (f : Cluster → Cluster) : (s.modCluster c f).gens = s.gens := rfl
@[simp] theorem State.modCluster_bumps (s : State) (c : Nat) (f : Cluster → Cluster) : (s.modCluster c f).bumps = s.bumps := rfl
@[simp] theorem State.modCluster_cores (s : State) (c : Nat) (f : Cluster → Cluster) : (s.modCluster c f).cores = s.cores := rfl
@[simp] theorem State.modCluster_clusters (s : State) (c : Nat) (f : Cluster → Cluster) : (s.modCluster c f).clusters = vmod s.clusters c f := rfl
@[simp] theorem State.modCluster_parts (s : State) (c : Nat) (f : Cluster → Cluster) : (s.modCluster c f).parts = s.parts := rfl
@[simp] theorem State.modCluster_groups (s : State) (c : Nat) (f : Cluster → Cluster) : (s.modCluster c f).groups = s.groups := rfl
@[simp] theorem State.modCluster_gangs (s : State) (c : Nat) (f : Cluster → Cluster) : (s.modCluster c f).gangs = s.gangs := rfl
@[simp] theorem State.modCluster_launches (s : State) (c : Nat) (f : Cluster → Cluster) : (s.modCluster c f).launches = s.launches := rfl
@[simp] theorem State.modCluster_saved (s : State) (c : Nat) (f : Cluster → Cluster) : (s.modCluster c f).saved = s.saved := rfl
@[simp] theorem State.modCluster_faultRecs (s : State) (c : Nat) (f : Cluster → Cluster) : (s.modCluster c f).faultRecs = s.faultRecs := rfl
@[simp] theorem State.modCluster_ctxCount (s : State) (c : Nat) (f : Cluster → Cluster) : (s.modCluster c f).ctxCount = s.ctxCount := rfl
@[simp] theorem State.modCluster_ctxEnded (s : State) (c : Nat) (f : Cluster → Cluster) : (s.modCluster c f).ctxEnded = s.ctxEnded := rfl
@[simp] theorem State.modCluster_ports (s : State) (c : Nat) (f : Cluster → Cluster) : (s.modCluster c f).ports = s.ports := rfl
@[simp] theorem State.modCluster_remote (s : State) (c : Nat) (f : Cluster → Cluster) : (s.modCluster c f).remote = s.remote := rfl
@[simp] theorem State.modCluster_linkKeys (s : State) (c : Nat) (f : Cluster → Cluster) : (s.modCluster c f).linkKeys = s.linkKeys := rfl
@[simp] theorem State.modCluster_sprays (s : State) (c : Nat) (f : Cluster → Cluster) : (s.modCluster c f).sprays = s.sprays := rfl
@[simp] theorem State.modCluster_colls (s : State) (c : Nat) (f : Cluster → Cluster) : (s.modCluster c f).colls = s.colls := rfl
@[simp] theorem State.modCluster_early (s : State) (c : Nat) (f : Cluster → Cluster) : (s.modCluster c f).early = s.early := rfl
@[simp] theorem State.modCluster_splice (s : State) (c : Nat) (f : Cluster → Cluster) : (s.modCluster c f).splice = s.splice := rfl
@[simp] theorem State.modCluster_tests (s : State) (c : Nat) (f : Cluster → Cluster) : (s.modCluster c f).tests = s.tests := rfl
@[simp] theorem State.modCluster_devId (s : State) (c : Nat) (f : Cluster → Cluster) : (s.modCluster c f).devId = s.devId := rfl
@[simp] theorem State.modCluster_devState (s : State) (c : Nat) (f : Cluster → Cluster) : (s.modCluster c f).devState = s.devState := rfl
@[simp] theorem State.modCluster_spdm (s : State) (c : Nat) (f : Cluster → Cluster) : (s.modCluster c f).spdm = s.spdm := rfl
@[simp] theorem State.modCluster_sessions (s : State) (c : Nat) (f : Cluster → Cluster) : (s.modCluster c f).sessions = s.sessions := rfl
@[simp] theorem State.modCluster_clusterSel (s : State) (c : Nat) (f : Cluster → Cluster) : (s.modCluster c f).clusterSel = s.clusterSel := rfl
@[simp] theorem State.modCluster_epoch (s : State) (c : Nat) (f : Cluster → Cluster) : (s.modCluster c f).epoch = s.epoch := rfl
@[simp] theorem State.modCluster_floors (s : State) (c : Nat) (f : Cluster → Cluster) : (s.modCluster c f).floors = s.floors := rfl
@[simp] theorem State.modCluster_versions (s : State) (c : Nat) (f : Cluster → Cluster) : (s.modCluster c f).versions = s.versions := rfl
@[simp] theorem State.modCluster_staged (s : State) (c : Nat) (f : Cluster → Cluster) : (s.modCluster c f).staged = s.staged := rfl
@[simp] theorem State.modCluster_trim (s : State) (c : Nat) (f : Cluster → Cluster) : (s.modCluster c f).trim = s.trim := rfl
@[simp] theorem State.modCluster_now (s : State) (c : Nat) (f : Cluster → Cluster) : (s.modCluster c f).now = s.now := rfl
@[simp] theorem State.modCluster_agenda (s : State) (c : Nat) (f : Cluster → Cluster) : (s.modCluster c f).agenda = s.agenda := rfl
@[simp] theorem State.modCluster_cur (s : State) (c : Nat) (f : Cluster → Cluster) : (s.modCluster c f).cur = s.cur := rfl
@[simp] theorem State.modCluster_deferred (s : State) (c : Nat) (f : Cluster → Cluster) : (s.modCluster c f).deferred = s.deferred := rfl
@[simp] theorem State.modCluster_fresh (s : State) (c : Nat) (f : Cluster → Cluster) : (s.modCluster c f).fresh = s.fresh := rfl
@[simp] theorem State.modCluster_nextId (s : State) (c : Nat) (f : Cluster → Cluster) : (s.modCluster c f).nextId = s.nextId := rfl
@[simp] theorem State.modCluster_sent (s : State) (c : Nat) (f : Cluster → Cluster) : (s.modCluster c f).sent = s.sent := rfl
@[simp] theorem State.modCluster_history (s : State) (c : Nat) (f : Cluster → Cluster) : (s.modCluster c f).history = s.history := rfl
@[simp] theorem State.modCluster_beyond (s : State) (c : Nat) (f : Cluster → Cluster) : (s.modCluster c f).beyond = s.beyond := rfl

/-! ## `State.modPart` -/

@[simp] theorem State.modPart_mem (s : State) (p : Nat) (f : Partition → Partition) : (s.modPart p f).mem = s.mem := rfl
@[simp] theorem State.modPart_hostMem (s : State) (p : Nat) (f : Partition → Partition) : (s.modPart p f).hostMem = s.hostMem := rfl
@[simp] theorem State.modPart_lineKeys (s : State) (p : Nat) (f : Partition → Partition) : (s.modPart p f).lineKeys = s.lineKeys := rfl
@[simp] theorem State.modPart_badLines (s : State) (p : Nat) (f : Partition → Partition) : (s.modPart p f).badLines = s.badLines := rfl
@[simp] theorem State.modPart_badHost (s : State) (p : Nat) (f : Partition → Partition) : (s.modPart p f).badHost = s.badHost := rfl
@[simp] theorem State.modPart_homeLines (s : State) (p : Nat) (f : Partition → Partition) : (s.modPart p f).homeLines = s.homeLines := rfl
@[simp] theorem State.modPart_gens (s : State) (p : Nat) (f : Partition → Partition) : (s.modPart p f).gens = s.gens := rfl
@[simp] theorem State.modPart_bumps (s : State) (p : Nat) (f : Partition → Partition) : (s.modPart p f).bumps = s.bumps := rfl
@[simp] theorem State.modPart_cores (s : State) (p : Nat) (f : Partition → Partition) : (s.modPart p f).cores = s.cores := rfl
@[simp] theorem State.modPart_clusters (s : State) (p : Nat) (f : Partition → Partition) : (s.modPart p f).clusters = s.clusters := rfl
@[simp] theorem State.modPart_parts (s : State) (p : Nat) (f : Partition → Partition) : (s.modPart p f).parts = vmod s.parts p f := rfl
@[simp] theorem State.modPart_groups (s : State) (p : Nat) (f : Partition → Partition) : (s.modPart p f).groups = s.groups := rfl
@[simp] theorem State.modPart_gangs (s : State) (p : Nat) (f : Partition → Partition) : (s.modPart p f).gangs = s.gangs := rfl
@[simp] theorem State.modPart_launches (s : State) (p : Nat) (f : Partition → Partition) : (s.modPart p f).launches = s.launches := rfl
@[simp] theorem State.modPart_saved (s : State) (p : Nat) (f : Partition → Partition) : (s.modPart p f).saved = s.saved := rfl
@[simp] theorem State.modPart_faultRecs (s : State) (p : Nat) (f : Partition → Partition) : (s.modPart p f).faultRecs = s.faultRecs := rfl
@[simp] theorem State.modPart_ctxCount (s : State) (p : Nat) (f : Partition → Partition) : (s.modPart p f).ctxCount = s.ctxCount := rfl
@[simp] theorem State.modPart_ctxEnded (s : State) (p : Nat) (f : Partition → Partition) : (s.modPart p f).ctxEnded = s.ctxEnded := rfl
@[simp] theorem State.modPart_ports (s : State) (p : Nat) (f : Partition → Partition) : (s.modPart p f).ports = s.ports := rfl
@[simp] theorem State.modPart_remote (s : State) (p : Nat) (f : Partition → Partition) : (s.modPart p f).remote = s.remote := rfl
@[simp] theorem State.modPart_linkKeys (s : State) (p : Nat) (f : Partition → Partition) : (s.modPart p f).linkKeys = s.linkKeys := rfl
@[simp] theorem State.modPart_sprays (s : State) (p : Nat) (f : Partition → Partition) : (s.modPart p f).sprays = s.sprays := rfl
@[simp] theorem State.modPart_colls (s : State) (p : Nat) (f : Partition → Partition) : (s.modPart p f).colls = s.colls := rfl
@[simp] theorem State.modPart_early (s : State) (p : Nat) (f : Partition → Partition) : (s.modPart p f).early = s.early := rfl
@[simp] theorem State.modPart_splice (s : State) (p : Nat) (f : Partition → Partition) : (s.modPart p f).splice = s.splice := rfl
@[simp] theorem State.modPart_tests (s : State) (p : Nat) (f : Partition → Partition) : (s.modPart p f).tests = s.tests := rfl
@[simp] theorem State.modPart_devId (s : State) (p : Nat) (f : Partition → Partition) : (s.modPart p f).devId = s.devId := rfl
@[simp] theorem State.modPart_devState (s : State) (p : Nat) (f : Partition → Partition) : (s.modPart p f).devState = s.devState := rfl
@[simp] theorem State.modPart_spdm (s : State) (p : Nat) (f : Partition → Partition) : (s.modPart p f).spdm = s.spdm := rfl
@[simp] theorem State.modPart_sessions (s : State) (p : Nat) (f : Partition → Partition) : (s.modPart p f).sessions = s.sessions := rfl
@[simp] theorem State.modPart_clusterSel (s : State) (p : Nat) (f : Partition → Partition) : (s.modPart p f).clusterSel = s.clusterSel := rfl
@[simp] theorem State.modPart_epoch (s : State) (p : Nat) (f : Partition → Partition) : (s.modPart p f).epoch = s.epoch := rfl
@[simp] theorem State.modPart_floors (s : State) (p : Nat) (f : Partition → Partition) : (s.modPart p f).floors = s.floors := rfl
@[simp] theorem State.modPart_versions (s : State) (p : Nat) (f : Partition → Partition) : (s.modPart p f).versions = s.versions := rfl
@[simp] theorem State.modPart_staged (s : State) (p : Nat) (f : Partition → Partition) : (s.modPart p f).staged = s.staged := rfl
@[simp] theorem State.modPart_trim (s : State) (p : Nat) (f : Partition → Partition) : (s.modPart p f).trim = s.trim := rfl
@[simp] theorem State.modPart_now (s : State) (p : Nat) (f : Partition → Partition) : (s.modPart p f).now = s.now := rfl
@[simp] theorem State.modPart_agenda (s : State) (p : Nat) (f : Partition → Partition) : (s.modPart p f).agenda = s.agenda := rfl
@[simp] theorem State.modPart_cur (s : State) (p : Nat) (f : Partition → Partition) : (s.modPart p f).cur = s.cur := rfl
@[simp] theorem State.modPart_deferred (s : State) (p : Nat) (f : Partition → Partition) : (s.modPart p f).deferred = s.deferred := rfl
@[simp] theorem State.modPart_fresh (s : State) (p : Nat) (f : Partition → Partition) : (s.modPart p f).fresh = s.fresh := rfl
@[simp] theorem State.modPart_nextId (s : State) (p : Nat) (f : Partition → Partition) : (s.modPart p f).nextId = s.nextId := rfl
@[simp] theorem State.modPart_sent (s : State) (p : Nat) (f : Partition → Partition) : (s.modPart p f).sent = s.sent := rfl
@[simp] theorem State.modPart_history (s : State) (p : Nat) (f : Partition → Partition) : (s.modPart p f).history = s.history := rfl
@[simp] theorem State.modPart_beyond (s : State) (p : Nat) (f : Partition → Partition) : (s.modPart p f).beyond = s.beyond := rfl

/-! ## `State.modGang` -/

@[simp] theorem State.modGang_mem (s : State) (i : Nat) (f : Gang → Gang) : (s.modGang i f).mem = s.mem := rfl
@[simp] theorem State.modGang_hostMem (s : State) (i : Nat) (f : Gang → Gang) : (s.modGang i f).hostMem = s.hostMem := rfl
@[simp] theorem State.modGang_lineKeys (s : State) (i : Nat) (f : Gang → Gang) : (s.modGang i f).lineKeys = s.lineKeys := rfl
@[simp] theorem State.modGang_badLines (s : State) (i : Nat) (f : Gang → Gang) : (s.modGang i f).badLines = s.badLines := rfl
@[simp] theorem State.modGang_badHost (s : State) (i : Nat) (f : Gang → Gang) : (s.modGang i f).badHost = s.badHost := rfl
@[simp] theorem State.modGang_homeLines (s : State) (i : Nat) (f : Gang → Gang) : (s.modGang i f).homeLines = s.homeLines := rfl
@[simp] theorem State.modGang_gens (s : State) (i : Nat) (f : Gang → Gang) : (s.modGang i f).gens = s.gens := rfl
@[simp] theorem State.modGang_bumps (s : State) (i : Nat) (f : Gang → Gang) : (s.modGang i f).bumps = s.bumps := rfl
@[simp] theorem State.modGang_cores (s : State) (i : Nat) (f : Gang → Gang) : (s.modGang i f).cores = s.cores := rfl
@[simp] theorem State.modGang_clusters (s : State) (i : Nat) (f : Gang → Gang) : (s.modGang i f).clusters = s.clusters := rfl
@[simp] theorem State.modGang_parts (s : State) (i : Nat) (f : Gang → Gang) : (s.modGang i f).parts = s.parts := rfl
@[simp] theorem State.modGang_groups (s : State) (i : Nat) (f : Gang → Gang) : (s.modGang i f).groups = s.groups := rfl
@[simp] theorem State.modGang_gangs (s : State) (i : Nat) (f : Gang → Gang) : (s.modGang i f).gangs = Map.modify s.gangs i f := rfl
@[simp] theorem State.modGang_launches (s : State) (i : Nat) (f : Gang → Gang) : (s.modGang i f).launches = s.launches := rfl
@[simp] theorem State.modGang_saved (s : State) (i : Nat) (f : Gang → Gang) : (s.modGang i f).saved = s.saved := rfl
@[simp] theorem State.modGang_faultRecs (s : State) (i : Nat) (f : Gang → Gang) : (s.modGang i f).faultRecs = s.faultRecs := rfl
@[simp] theorem State.modGang_ctxCount (s : State) (i : Nat) (f : Gang → Gang) : (s.modGang i f).ctxCount = s.ctxCount := rfl
@[simp] theorem State.modGang_ctxEnded (s : State) (i : Nat) (f : Gang → Gang) : (s.modGang i f).ctxEnded = s.ctxEnded := rfl
@[simp] theorem State.modGang_ports (s : State) (i : Nat) (f : Gang → Gang) : (s.modGang i f).ports = s.ports := rfl
@[simp] theorem State.modGang_remote (s : State) (i : Nat) (f : Gang → Gang) : (s.modGang i f).remote = s.remote := rfl
@[simp] theorem State.modGang_linkKeys (s : State) (i : Nat) (f : Gang → Gang) : (s.modGang i f).linkKeys = s.linkKeys := rfl
@[simp] theorem State.modGang_sprays (s : State) (i : Nat) (f : Gang → Gang) : (s.modGang i f).sprays = s.sprays := rfl
@[simp] theorem State.modGang_colls (s : State) (i : Nat) (f : Gang → Gang) : (s.modGang i f).colls = s.colls := rfl
@[simp] theorem State.modGang_early (s : State) (i : Nat) (f : Gang → Gang) : (s.modGang i f).early = s.early := rfl
@[simp] theorem State.modGang_splice (s : State) (i : Nat) (f : Gang → Gang) : (s.modGang i f).splice = s.splice := rfl
@[simp] theorem State.modGang_tests (s : State) (i : Nat) (f : Gang → Gang) : (s.modGang i f).tests = s.tests := rfl
@[simp] theorem State.modGang_devId (s : State) (i : Nat) (f : Gang → Gang) : (s.modGang i f).devId = s.devId := rfl
@[simp] theorem State.modGang_devState (s : State) (i : Nat) (f : Gang → Gang) : (s.modGang i f).devState = s.devState := rfl
@[simp] theorem State.modGang_spdm (s : State) (i : Nat) (f : Gang → Gang) : (s.modGang i f).spdm = s.spdm := rfl
@[simp] theorem State.modGang_sessions (s : State) (i : Nat) (f : Gang → Gang) : (s.modGang i f).sessions = s.sessions := rfl
@[simp] theorem State.modGang_clusterSel (s : State) (i : Nat) (f : Gang → Gang) : (s.modGang i f).clusterSel = s.clusterSel := rfl
@[simp] theorem State.modGang_epoch (s : State) (i : Nat) (f : Gang → Gang) : (s.modGang i f).epoch = s.epoch := rfl
@[simp] theorem State.modGang_floors (s : State) (i : Nat) (f : Gang → Gang) : (s.modGang i f).floors = s.floors := rfl
@[simp] theorem State.modGang_versions (s : State) (i : Nat) (f : Gang → Gang) : (s.modGang i f).versions = s.versions := rfl
@[simp] theorem State.modGang_staged (s : State) (i : Nat) (f : Gang → Gang) : (s.modGang i f).staged = s.staged := rfl
@[simp] theorem State.modGang_trim (s : State) (i : Nat) (f : Gang → Gang) : (s.modGang i f).trim = s.trim := rfl
@[simp] theorem State.modGang_now (s : State) (i : Nat) (f : Gang → Gang) : (s.modGang i f).now = s.now := rfl
@[simp] theorem State.modGang_agenda (s : State) (i : Nat) (f : Gang → Gang) : (s.modGang i f).agenda = s.agenda := rfl
@[simp] theorem State.modGang_cur (s : State) (i : Nat) (f : Gang → Gang) : (s.modGang i f).cur = s.cur := rfl
@[simp] theorem State.modGang_deferred (s : State) (i : Nat) (f : Gang → Gang) : (s.modGang i f).deferred = s.deferred := rfl
@[simp] theorem State.modGang_fresh (s : State) (i : Nat) (f : Gang → Gang) : (s.modGang i f).fresh = s.fresh := rfl
@[simp] theorem State.modGang_nextId (s : State) (i : Nat) (f : Gang → Gang) : (s.modGang i f).nextId = s.nextId := rfl
@[simp] theorem State.modGang_sent (s : State) (i : Nat) (f : Gang → Gang) : (s.modGang i f).sent = s.sent := rfl
@[simp] theorem State.modGang_history (s : State) (i : Nat) (f : Gang → Gang) : (s.modGang i f).history = s.history := rfl
@[simp] theorem State.modGang_beyond (s : State) (i : Nat) (f : Gang → Gang) : (s.modGang i f).beyond = s.beyond := rfl

/-! ## `State.draw` -/

@[simp] theorem State.draw_mem (s : State) : (s.draw).mem = s.mem := rfl
@[simp] theorem State.draw_hostMem (s : State) : (s.draw).hostMem = s.hostMem := rfl
@[simp] theorem State.draw_lineKeys (s : State) : (s.draw).lineKeys = s.lineKeys := rfl
@[simp] theorem State.draw_badLines (s : State) : (s.draw).badLines = s.badLines := rfl
@[simp] theorem State.draw_badHost (s : State) : (s.draw).badHost = s.badHost := rfl
@[simp] theorem State.draw_homeLines (s : State) : (s.draw).homeLines = s.homeLines := rfl
@[simp] theorem State.draw_gens (s : State) : (s.draw).gens = s.gens := rfl
@[simp] theorem State.draw_bumps (s : State) : (s.draw).bumps = s.bumps := rfl
@[simp] theorem State.draw_cores (s : State) : (s.draw).cores = s.cores := rfl
@[simp] theorem State.draw_clusters (s : State) : (s.draw).clusters = s.clusters := rfl
@[simp] theorem State.draw_parts (s : State) : (s.draw).parts = s.parts := rfl
@[simp] theorem State.draw_groups (s : State) : (s.draw).groups = s.groups := rfl
@[simp] theorem State.draw_gangs (s : State) : (s.draw).gangs = s.gangs := rfl
@[simp] theorem State.draw_launches (s : State) : (s.draw).launches = s.launches := rfl
@[simp] theorem State.draw_saved (s : State) : (s.draw).saved = s.saved := rfl
@[simp] theorem State.draw_faultRecs (s : State) : (s.draw).faultRecs = s.faultRecs := rfl
@[simp] theorem State.draw_ctxCount (s : State) : (s.draw).ctxCount = s.ctxCount := rfl
@[simp] theorem State.draw_ctxEnded (s : State) : (s.draw).ctxEnded = s.ctxEnded := rfl
@[simp] theorem State.draw_ports (s : State) : (s.draw).ports = s.ports := rfl
@[simp] theorem State.draw_remote (s : State) : (s.draw).remote = s.remote := rfl
@[simp] theorem State.draw_linkKeys (s : State) : (s.draw).linkKeys = s.linkKeys := rfl
@[simp] theorem State.draw_sprays (s : State) : (s.draw).sprays = s.sprays := rfl
@[simp] theorem State.draw_colls (s : State) : (s.draw).colls = s.colls := rfl
@[simp] theorem State.draw_early (s : State) : (s.draw).early = s.early := rfl
@[simp] theorem State.draw_splice (s : State) : (s.draw).splice = s.splice := rfl
@[simp] theorem State.draw_tests (s : State) : (s.draw).tests = s.tests := rfl
@[simp] theorem State.draw_devId (s : State) : (s.draw).devId = s.devId := rfl
@[simp] theorem State.draw_devState (s : State) : (s.draw).devState = s.devState := rfl
@[simp] theorem State.draw_spdm (s : State) : (s.draw).spdm = s.spdm := rfl
@[simp] theorem State.draw_sessions (s : State) : (s.draw).sessions = s.sessions := rfl
@[simp] theorem State.draw_clusterSel (s : State) : (s.draw).clusterSel = s.clusterSel := rfl
@[simp] theorem State.draw_epoch (s : State) : (s.draw).epoch = s.epoch := rfl
@[simp] theorem State.draw_floors (s : State) : (s.draw).floors = s.floors := rfl
@[simp] theorem State.draw_versions (s : State) : (s.draw).versions = s.versions := rfl
@[simp] theorem State.draw_staged (s : State) : (s.draw).staged = s.staged := rfl
@[simp] theorem State.draw_trim (s : State) : (s.draw).trim = s.trim := rfl
@[simp] theorem State.draw_now (s : State) : (s.draw).now = s.now := rfl
@[simp] theorem State.draw_agenda (s : State) : (s.draw).agenda = s.agenda := rfl
@[simp] theorem State.draw_cur (s : State) : (s.draw).cur = s.cur := rfl
@[simp] theorem State.draw_deferred (s : State) : (s.draw).deferred = s.deferred := rfl
@[simp] theorem State.draw_fresh (s : State) : (s.draw).fresh = s.fresh + 1 := rfl
@[simp] theorem State.draw_nextId (s : State) : (s.draw).nextId = s.nextId := rfl
@[simp] theorem State.draw_sent (s : State) : (s.draw).sent = s.sent := rfl
@[simp] theorem State.draw_history (s : State) : (s.draw).history = s.history := rfl
@[simp] theorem State.draw_beyond (s : State) : (s.draw).beyond = s.beyond := rfl

/-! ## `State.takeId` -/

@[simp] theorem State.takeId_mem (s : State) : (s.takeId).mem = s.mem := rfl
@[simp] theorem State.takeId_hostMem (s : State) : (s.takeId).hostMem = s.hostMem := rfl
@[simp] theorem State.takeId_lineKeys (s : State) : (s.takeId).lineKeys = s.lineKeys := rfl
@[simp] theorem State.takeId_badLines (s : State) : (s.takeId).badLines = s.badLines := rfl
@[simp] theorem State.takeId_badHost (s : State) : (s.takeId).badHost = s.badHost := rfl
@[simp] theorem State.takeId_homeLines (s : State) : (s.takeId).homeLines = s.homeLines := rfl
@[simp] theorem State.takeId_gens (s : State) : (s.takeId).gens = s.gens := rfl
@[simp] theorem State.takeId_bumps (s : State) : (s.takeId).bumps = s.bumps := rfl
@[simp] theorem State.takeId_cores (s : State) : (s.takeId).cores = s.cores := rfl
@[simp] theorem State.takeId_clusters (s : State) : (s.takeId).clusters = s.clusters := rfl
@[simp] theorem State.takeId_parts (s : State) : (s.takeId).parts = s.parts := rfl
@[simp] theorem State.takeId_groups (s : State) : (s.takeId).groups = s.groups := rfl
@[simp] theorem State.takeId_gangs (s : State) : (s.takeId).gangs = s.gangs := rfl
@[simp] theorem State.takeId_launches (s : State) : (s.takeId).launches = s.launches := rfl
@[simp] theorem State.takeId_saved (s : State) : (s.takeId).saved = s.saved := rfl
@[simp] theorem State.takeId_faultRecs (s : State) : (s.takeId).faultRecs = s.faultRecs := rfl
@[simp] theorem State.takeId_ctxCount (s : State) : (s.takeId).ctxCount = s.ctxCount := rfl
@[simp] theorem State.takeId_ctxEnded (s : State) : (s.takeId).ctxEnded = s.ctxEnded := rfl
@[simp] theorem State.takeId_ports (s : State) : (s.takeId).ports = s.ports := rfl
@[simp] theorem State.takeId_remote (s : State) : (s.takeId).remote = s.remote := rfl
@[simp] theorem State.takeId_linkKeys (s : State) : (s.takeId).linkKeys = s.linkKeys := rfl
@[simp] theorem State.takeId_sprays (s : State) : (s.takeId).sprays = s.sprays := rfl
@[simp] theorem State.takeId_colls (s : State) : (s.takeId).colls = s.colls := rfl
@[simp] theorem State.takeId_early (s : State) : (s.takeId).early = s.early := rfl
@[simp] theorem State.takeId_splice (s : State) : (s.takeId).splice = s.splice := rfl
@[simp] theorem State.takeId_tests (s : State) : (s.takeId).tests = s.tests := rfl
@[simp] theorem State.takeId_devId (s : State) : (s.takeId).devId = s.devId := rfl
@[simp] theorem State.takeId_devState (s : State) : (s.takeId).devState = s.devState := rfl
@[simp] theorem State.takeId_spdm (s : State) : (s.takeId).spdm = s.spdm := rfl
@[simp] theorem State.takeId_sessions (s : State) : (s.takeId).sessions = s.sessions := rfl
@[simp] theorem State.takeId_clusterSel (s : State) : (s.takeId).clusterSel = s.clusterSel := rfl
@[simp] theorem State.takeId_epoch (s : State) : (s.takeId).epoch = s.epoch := rfl
@[simp] theorem State.takeId_floors (s : State) : (s.takeId).floors = s.floors := rfl
@[simp] theorem State.takeId_versions (s : State) : (s.takeId).versions = s.versions := rfl
@[simp] theorem State.takeId_staged (s : State) : (s.takeId).staged = s.staged := rfl
@[simp] theorem State.takeId_trim (s : State) : (s.takeId).trim = s.trim := rfl
@[simp] theorem State.takeId_now (s : State) : (s.takeId).now = s.now := rfl
@[simp] theorem State.takeId_agenda (s : State) : (s.takeId).agenda = s.agenda := rfl
@[simp] theorem State.takeId_cur (s : State) : (s.takeId).cur = s.cur := rfl
@[simp] theorem State.takeId_deferred (s : State) : (s.takeId).deferred = s.deferred := rfl
@[simp] theorem State.takeId_fresh (s : State) : (s.takeId).fresh = s.fresh := rfl
@[simp] theorem State.takeId_nextId (s : State) : (s.takeId).nextId = s.nextId + 1 := rfl
@[simp] theorem State.takeId_sent (s : State) : (s.takeId).sent = s.sent := rfl
@[simp] theorem State.takeId_history (s : State) : (s.takeId).history = s.history := rfl
@[simp] theorem State.takeId_beyond (s : State) : (s.takeId).beyond = s.beyond := rfl

/-! ## `State.send` -/

@[simp] theorem State.send_mem (s : State) (x : Sent) : (s.send x).mem = s.mem := rfl
@[simp] theorem State.send_hostMem (s : State) (x : Sent) : (s.send x).hostMem = s.hostMem := rfl
@[simp] theorem State.send_lineKeys (s : State) (x : Sent) : (s.send x).lineKeys = s.lineKeys := rfl
@[simp] theorem State.send_badLines (s : State) (x : Sent) : (s.send x).badLines = s.badLines := rfl
@[simp] theorem State.send_badHost (s : State) (x : Sent) : (s.send x).badHost = s.badHost := rfl
@[simp] theorem State.send_homeLines (s : State) (x : Sent) : (s.send x).homeLines = s.homeLines := rfl
@[simp] theorem State.send_gens (s : State) (x : Sent) : (s.send x).gens = s.gens := rfl
@[simp] theorem State.send_bumps (s : State) (x : Sent) : (s.send x).bumps = s.bumps := rfl
@[simp] theorem State.send_cores (s : State) (x : Sent) : (s.send x).cores = s.cores := rfl
@[simp] theorem State.send_clusters (s : State) (x : Sent) : (s.send x).clusters = s.clusters := rfl
@[simp] theorem State.send_parts (s : State) (x : Sent) : (s.send x).parts = s.parts := rfl
@[simp] theorem State.send_groups (s : State) (x : Sent) : (s.send x).groups = s.groups := rfl
@[simp] theorem State.send_gangs (s : State) (x : Sent) : (s.send x).gangs = s.gangs := rfl
@[simp] theorem State.send_launches (s : State) (x : Sent) : (s.send x).launches = s.launches := rfl
@[simp] theorem State.send_saved (s : State) (x : Sent) : (s.send x).saved = s.saved := rfl
@[simp] theorem State.send_faultRecs (s : State) (x : Sent) : (s.send x).faultRecs = s.faultRecs := rfl
@[simp] theorem State.send_ctxCount (s : State) (x : Sent) : (s.send x).ctxCount = s.ctxCount := rfl
@[simp] theorem State.send_ctxEnded (s : State) (x : Sent) : (s.send x).ctxEnded = s.ctxEnded := rfl
@[simp] theorem State.send_ports (s : State) (x : Sent) : (s.send x).ports = s.ports := rfl
@[simp] theorem State.send_remote (s : State) (x : Sent) : (s.send x).remote = s.remote := rfl
@[simp] theorem State.send_linkKeys (s : State) (x : Sent) : (s.send x).linkKeys = s.linkKeys := rfl
@[simp] theorem State.send_sprays (s : State) (x : Sent) : (s.send x).sprays = s.sprays := rfl
@[simp] theorem State.send_colls (s : State) (x : Sent) : (s.send x).colls = s.colls := rfl
@[simp] theorem State.send_early (s : State) (x : Sent) : (s.send x).early = s.early := rfl
@[simp] theorem State.send_splice (s : State) (x : Sent) : (s.send x).splice = s.splice := rfl
@[simp] theorem State.send_tests (s : State) (x : Sent) : (s.send x).tests = s.tests := rfl
@[simp] theorem State.send_devId (s : State) (x : Sent) : (s.send x).devId = s.devId := rfl
@[simp] theorem State.send_devState (s : State) (x : Sent) : (s.send x).devState = s.devState := rfl
@[simp] theorem State.send_spdm (s : State) (x : Sent) : (s.send x).spdm = s.spdm := rfl
@[simp] theorem State.send_sessions (s : State) (x : Sent) : (s.send x).sessions = s.sessions := rfl
@[simp] theorem State.send_clusterSel (s : State) (x : Sent) : (s.send x).clusterSel = s.clusterSel := rfl
@[simp] theorem State.send_epoch (s : State) (x : Sent) : (s.send x).epoch = s.epoch := rfl
@[simp] theorem State.send_floors (s : State) (x : Sent) : (s.send x).floors = s.floors := rfl
@[simp] theorem State.send_versions (s : State) (x : Sent) : (s.send x).versions = s.versions := rfl
@[simp] theorem State.send_staged (s : State) (x : Sent) : (s.send x).staged = s.staged := rfl
@[simp] theorem State.send_trim (s : State) (x : Sent) : (s.send x).trim = s.trim := rfl
@[simp] theorem State.send_now (s : State) (x : Sent) : (s.send x).now = s.now := rfl
@[simp] theorem State.send_agenda (s : State) (x : Sent) : (s.send x).agenda = s.agenda := rfl
@[simp] theorem State.send_cur (s : State) (x : Sent) : (s.send x).cur = s.cur := rfl
@[simp] theorem State.send_deferred (s : State) (x : Sent) : (s.send x).deferred = s.deferred := rfl
@[simp] theorem State.send_fresh (s : State) (x : Sent) : (s.send x).fresh = s.fresh := rfl
@[simp] theorem State.send_nextId (s : State) (x : Sent) : (s.send x).nextId = s.nextId := rfl
@[simp] theorem State.send_sent (s : State) (x : Sent) : (s.send x).sent = x :: s.sent := rfl
@[simp] theorem State.send_history (s : State) (x : Sent) : (s.send x).history = s.history := rfl
@[simp] theorem State.send_beyond (s : State) (x : Sent) : (s.send x).beyond = s.beyond := rfl

end Sys2Proof.Machine
end

