-- ==== Sys2Proof/Laws/Words.lean ====
section
/-! SUPPORT. What a word that retires register results does, said once for every such word (R16, R27, R38). -/

namespace Sys2Proof.Machine

theorem Mask.has_and (a b : Mask) (t : Lane) : Mask.has (a &&& b) t = (Mask.has a t && Mask.has b t) := by
  simp [Mask.has]

theorem Mask.has_zero (t : Lane) : Mask.has 0 t = false := by simp [Mask.has]

theorem Mask.mem_lanes (m : Mask) (t : Lane) : t ∈ Mask.lanes m ↔ Mask.has m t = true := by simp [Mask.lanes]

theorem Mask.has_ofPred (p : Lane → Bool) (t : Lane) : Mask.has (Mask.ofPred p) t = p t := by
  simp [Mask.has, Mask.ofPred]

theorem Mask.eq_zero_iff (m : Mask) : m = 0 ↔ ∀ t, Mask.has m t = false := by
  refine ⟨fun h t => h ▸ Mask.has_zero t, fun h => BitVec.eq_of_getLsbD_eq (fun i hi => ?_)⟩
  have := h ⟨i, hi⟩
  simpa [Mask.has] using this

/-- A covered thread lives (R16, R41). -/
theorem Issues.covered {s : State} {h : Here} (hi : Issues s h) (g : Guard) (t : Lane) (ht : Mask.has (h.cov g) t = true) :
    Mask.has h.w.alive t = true := by
  unfold Here.cov Wave.cover at ht
  rw [Mask.has_and, Bool.and_eq_true] at ht
  exact hi.exec t ht.1

/-- The events of covered threads' operations are those of the statements (R27). -/
theorem Wave.aluFlags_raised (w : Wave) (cov : Mask) (op : AluOp) :
    (if cov = 0 then 0 else w.aluFlags cov op) = raised cov (fun q => op.f q (op.srcs.map (fun r => w.read r q))) := by
  by_cases h : cov = 0
  · have no (t : Lane) : Mask.has cov t = false := (Mask.eq_zero_iff cov).mp h t
    rw [if_pos h]; unfold raised; simp only [no]; simp
  · rw [if_neg h]; simp [raised, Wave.aluFlags, List.any_map, List.any_eq_true, Mask.mem_lanes]

/-- A word whose one effect is a register result: it retires, and a covered thread reads in each destination what the operation gives
of what the thread read in the sources, where none of these is VOID for it. -/
theorem State.aluWord_spec {s : State} {h : Here} (hi : Issues s h) (g : Guard) (f : Here → AluOp)
    (hd : (f h).dests.Nodup) (hlt : ∀ d ∈ (f h).dests, d < 256) (hk : (f h).keep = true → ∀ a b xs, (f h).f a xs = (f h).f b xs) :
    s.aluWord g f = .next (s.retireAlu h (h.cov g) (f h)) ∧
      Retires s (s.retireAlu h (h.cov g) (f h)) h (fun _ => h.cov g) (f h).dests false
        (raised (h.cov g) (fun q => (f h).f q ((f h).srcs.map (fun r => h.w.read r q)))) (h.w.alu (h.cov g) (f h)) ∧
      (∀ (i d : Nat), (f h).dests[i]? = some d → ∀ t : Lane, Mask.has (h.cov g) t = true →
        ((f h).keep = true → h.w.Sees (f h).srcs t) →
        (h.w.alu (h.cov g) (f h)).read d t = (((f h).f t ((f h).srcs.map (fun r => h.w.read r t))).vals)[i]?.getD 0) := by
  obtain ⟨a1, a2, a3, a4, a5⟩ := h.w.alu_spec (h.cov g) (f h) hi.lays.borrows hi.lays.placed hd hlt (hi.covered g) hk
    (fun r hr t ht => (hi.lays.uniform r hr t ht).2)
  refine ⟨?_, ⟨?_, a2, ?_, a3, a4⟩, a5⟩
  · unfold State.aluWord; rw [hi.here]; rfl
  · unfold State.retireAlu; rw [Wave.aluFlags_raised]; rfl
  · have : (h.w.alu (h.cov g) (f h)).deadsrc = h.w.deadsrc := Wave.alu_deadsrc _ _ _
    rw [this, Bool.or_false]

end Sys2Proof.Machine
end

