-- ==== Sys2Proof/Tests/Slice0.lean ====
section
/-! SUPPORT. Tests: ill-formed terms, words of the spec's encodings, one step on small states with results worked out from the rules, and for
every statement a state and operands that meet its hypotheses. -/

namespace Sys2Proof.Tests

open Sys2Proof Sys2Proof.Machine

set_option Elab.async false

/-! ## Ill-formed terms: one for each check of WellFormed -/

/-- The guard of most terms. -/
def on : Guard := Guard.always

/-- M-class fields of a term. -/
def mem (size : MSize) (space : Space) (order : Order := .rlx) (scope : Scope := .wave) (sx : Bool := false) (hint : Hint := .normal) : MemMod :=
  ⟨size, sx, order, scope, hint, space⟩

theorem test_wf_guard : (Instr.movi ⟨true, 7⟩ 1 0).wf = false ∧ (Instr.exit ⟨true, 7⟩).wf = false ∧ (Instr.nop ⟨true, 7⟩).wf = true := by decide

theorem test_wf_integer : [Instr.mov on 5 6 true, .mov on 4 7 true, .iadd on 1 2 3 false true, .isub on 1 2 3 false true, .imul on 1 2 3 false true,
    .imad on 1 2 3 4 true false false, .imad on 2 3 4 5 true false false, .imad on 1 2 3 4 false false true,
    .icmp on 1 3 4 0 .eq .none true false, .icmp on 1 4 5 0 .eq .none true false, .icmp on 1 2 3 1 .eq .none false false].all (fun i => !i.wf) := by decide

theorem test_wf_float : [Instr.fcmp on 1 2 3 4 .lt .none, .cvt on 1 2 .rne true .f32 .s32 false, .cvt on 1 2 .rne false .f32 .s32 true,
    .cvt on 1 2 .rne false .s32 .s32 false, .cvt on 1 3 .rne false .f32 .s64 false, .cvt on 1 2 .rne false .s64 .f32 false].all (fun i => !i.wf) := by
  decide

theorem test_wf_pair : [Instr.pairIadd ⟨⟨true, 7⟩, 8, .reg 9⟩ ⟨.fmul, on, 13, .reg 14⟩, .pairIadd ⟨on, 8, .reg 9⟩ ⟨.fmul, on, 13, .imm 1⟩,
    .pairFadd ⟨on, 8, .imm 1⟩ ⟨.iadd, on, 13, .reg 14⟩, .pairIadd ⟨on, 8, .reg 9⟩ ⟨.iadd, on, 12, .reg 14⟩,
    .pairIadd ⟨on, 8, .reg 12⟩ ⟨.iadd, on, 13, .reg 16⟩].all (fun i => !i.wf) := by decide

theorem test_wf_lane : [Instr.shflx on 1 2 .w8 8, .shflup on 1 2 .w4 4, .shfldn on 1 2 .w2 2, .bcast on 1 2 .w16 16, .lxpose on 1 2 6,
    .gred on 1 2 .add .w32 .rtz, .gscan on 1 2 .fmin .w32 .rup false, .matchv on 1 3 false true].all (fun i => !i.wf) := by decide

theorem test_wf_control : [Instr.brx on 3, .spawn on 3 4 5].all (fun i => !i.wf) := by decide

theorem test_wf_loads : [Instr.ld on 4 6 (mem .w .scratch) 0, .ld on 4 7 (mem .w .global) 0, .ld on 5 6 (mem .d .global) 0, .ld on 4 6 (mem .w .global .rel) 0,
    .ld on 4 6 (mem .w .global .rlx .wave true) 0, .ld on 4 6 (mem .w .window .rlx .wave false .stream) 0, .ld on 4 6 (mem .w .global .rlx .memside) 0,
    .ld on 4 6 (mem .b .global .acq .memside) 0, .ld on 4 6 (mem .w .window .acq .memside) 0, .lds on 4 6 (mem .w .global) 0, .lds on 4 6 (mem .w .scratch .ar) 0,
    .lds on 4 6 (mem .w .scratch .acq .memside) 0, .lds on 4 6 (mem .w .scratch .rlx .wave false .keep) 0, .lds on 6 6 (mem .q .scratch) 0,
    .ldu on 4 6 0 (mem .d .global) 0, .ldu on 6 8 0 (mem .q .global) 0, .ldu on 4 7 0 (mem .q .global) 0, .ldu on 4 6 0 (mem .q .window) 0,
    .ldu on 4 6 0 (mem .q .global .rel) 0, .ldu on 4 6 0 (mem .q .global .acq .memside) 0].all (fun i => !i.wf) := by decide

theorem test_wf_stores : [Instr.st on 4 6 (mem .w .scratch) 0, .st on 4 7 (mem .w .global) 0, .st on 5 6 (mem .d .global) 0, .st on 4 6 (mem .w .global .acq) 0,
    .st on 4 6 (mem .h .global .rlx .wave true) 0, .st on 4 6 (mem .w .global .rel .memside) 0, .sts on 4 6 (mem .w .global) 0, .sts on 4 6 (mem .w .scratch .acq) 0,
    .sts on 4 6 (mem .b .scratch .rlx .wave true) 0, .sts on 4 6 (mem .w .scratch .rel .memside) 0, .sts on 6 6 (mem .q .scratch) 0,
    .stu on 4 6 0 (mem .d .global) 0, .stu on 6 8 0 (mem .q .global) 0, .stu on 4 7 0 (mem .q .global) 0, .stu on 4 6 0 (mem .q .window) 0,
    .stu on 4 6 0 (mem .q .global .acq) 0, .stu on 4 6 0 (mem .q .global .rel .memside) 0].all (fun i => !i.wf) := by decide

theorem test_wf_memory : [Instr.ld2s on 4 7 5 (mem .w .global) 0, .ld2s on 4 6 5 (mem .h .global) 0, .ld2s on 4 6 5 (mem .w .global .acq) 0,
    .ld2s on 4 6 5 (mem .w .global .rlx .device) 0, .ld2s on 4 6 5 (mem .w .window) 0, .pref on 7 .normal 0, .cmaintDrop on 7 0, .cmaintClean on 7 0,
    .cmaintFlush on 7 0, .fence on .rlx .device, .fence on .acq .memside, .mscmd on 4 7 5].all (fun i => !i.wf) := by decide

theorem test_wf_atomics : [Instr.atom on 4 6 5 ⟨.add, .rlx, .memside, false, false⟩ 0, .atom on 4 6 5 ⟨.add, .rlx, .device, false, true⟩ 0,
    .atom on 4 6 8 ⟨.fadd, .rlx, .device, true, false⟩ 0, .atom on 4 7 5 ⟨.add, .rlx, .device, false, false⟩ 0, .atom on 5 6 8 ⟨.add, .rlx, .device, true, false⟩ 0,
    .atom on 4 6 9 ⟨.add, .rlx, .device, true, false⟩ 0, .red on 6 5 ⟨.add, .acq, .device, false, false⟩ 0, .red on 7 5 ⟨.add, .rlx, .device, false, false⟩ 0,
    .red on 6 5 ⟨.add, .rlx, .device, true, false⟩ 0, .cas on 4 6 8 ⟨.or, .rlx, .device, false, false⟩ 0, .cas on 4 6 10 ⟨.add, .rlx, .device, true, false⟩ 0,
    .cas on 4 7 8 ⟨.add, .rlx, .device, false, false⟩ 0].all (fun i => !i.wf) := by decide

theorem test_wf_barriers : [Instr.barSync on 0 0 .wave 4 none, .barSync on 0 0 .cluster 8 none, .barSync on 1 0 .block 3 none, .barSync on 0 1 .block 3 none,
    .barSync on 4 5 .grid 0 (some ⟨.add, .rtz⟩), .barSync on 4 5 .grid 4 (some ⟨.fadd, .rne⟩), .barArr on .wave 4, .barWait on .grid 4, .barExp on 5 4].all
    (fun i => !i.wf) := by decide

theorem test_wf_engines : [Instr.cpyLin on 6 7 8 ⟨0, none⟩ false true, .cpyLin on 7 6 8 ⟨0, none⟩ true false, .cpyTld on 6 6 0 ⟨0, none⟩, .cpyTst on 6 6 0 ⟨0, none⟩,
    .cpyTred on 6 6 0 ⟨0, none⟩, .publ on 7, .cpymc on 4 5 7 8 .st ⟨0, none⟩, .coll on 7 0].all (fun i => !i.wf) := by decide

theorem test_wf_matrix : [Instr.tld on 5 6 7 8 0 0 false, .tld on 6 5 7 8 0 0 false, .mma on 0 12 8 9 0, .mmas on 4 5 6 0 2 2, .mmag on 4 5 6 7 0 3 1,
    .adrain on 6 7 0 false 0].all (fun i => !i.wf) := by decide

theorem test_wf_system : [Instr.icinv on 7 false, .icinv on 6 true, .tlbinv on 7 1 false, .tlbinv on 6 1 true, .stest on 4 0x0020, .stest on 4 0x1010,
    .stest on 4 0x2042, .stest on 4 0x3030, .stest on 4 0x3080, .stest on 4 0x4000, .lsupd on 4 0].all (fun i => !i.wf) := by decide

/-! ## Decoding: a word of each family, written out from the spec's encodings, and words that are no instruction -/

/-- IADD v5, v6, v7 and IADD v5, v6, 100 under a negated guard, from R74 and R75. -/
theorem test_decode_integer : decode 0x006E0A0C0E000000 = .ok (.iadd on 5 6 7 false false) ∧
    decode 0x00740A0C000000C9 = .ok (.iaddImmediate ⟨true, 2⟩ 5 6 100) ∧ decode 0x01EE080204060258 = .ok (.blut on 4 1 2 3 0x96) := by decide

/-- FADD v1, v2, v3 as a Z6 word (R408), and IADD as a Z5 word (R409). -/
theorem test_decode_modes : decodeIn 1 0x080E020406000000 = .ok (.fadd on 1 2 3 .rne) ∧ decodeIn 0 0x100E020406000000 = .ok (.fadd on 1 2 3 .rne) ∧
    decodeIn 2 0x006E28C380000000 = .ok (.iadd on 5 6 7 false false) := by decide

/-- IADD v8, v9 && FMUL v13, v14 (R83). -/
theorem test_decode_pair : decode 0x8170809024E1A1C0 = .ok (.pairIadd ⟨on, 8, .reg 9⟩ ⟨.fmul, on, 13, .reg 14⟩) := by decide

theorem test_decode_lane : decode 0x202E080400000004 = .ok (.shflx on 4 2 .w32 1) := by decide

/-- BRA of R81: the guard always, the target 16 words back, the join 8 on. -/
theorem test_decode_control : decode 0x280FFFFFE0000010 = .ok (.bra on (-16) 8) ∧ decode 0x280400000C000001 = .ok (.braAny ⟨false, 2⟩ 6) ∧
    decode 0x28AE000000000000 = .ok (.exit on) := by decide

theorem test_decode_memory : decode 0x300E0E08008B0010 = .ok (.ld on 7 4 (mem .w .global .acq .device) 16) ∧
    decode 0x302E0C0800930008 = .ok (.st on 6 4 (mem .w .global .rel .device) 8) := by decide

theorem test_decode_atomics : decode 0x400E0C080E0B4000 = .ok (.atom on 6 4 7 ⟨.add, .acq, .device, false, false⟩ 0) ∧
    decode 0x402E00080FA34000 = .ok (.red on 4 7 ⟨.fmax, .rlx, .device, false, false⟩ 0) := by decide

theorem test_decode_barriers : decode 0x408E000080060000 = .ok (.barSync on 0 0 .block 3 none) ∧
    decode 0x408E2C2B80004400 = .ok (.barSync on 22 21 .grid 0 (some ⟨.fadd, .rne⟩)) ∧ decode 0x40AE001200000004 = .ok (.bartx on 9 0 true) := by decide

theorem test_decode_engines : decode 0x480E101412001800 = .ok (.cpyLin on 8 10 9 ⟨0, some 0⟩ false true) := by decide

theorem test_decode_matrix : decode 0x508E280810120F7C = .ok (.tld on 20 4 8 9 15 15 true) ∧ decode 0x50AE002010120004 = .ok (.mma on 0 16 8 9 1) ∧
    decode 0x50CE002426220000 = .ok (.mmas on 18 19 17 0 0 0) ∧ decode 0x516E180000000000 = .ok (.mfence on 12) := by decide

theorem test_decode_system : decode 0x584E020000000000 = .ok (.sysrd on 1 0) ∧ decode 0x59AE040000C80000 = .ok (.lsupd on 2 100) := by decide

/-- The reserved guard, an opcode that is not assigned, and a field that must be 0 (R73, R87). -/
theorem test_decode_refuses : decode 0x007E0A0C0E000000 = .error .guard ∧ decode 0x600E000000000000 = .error .unassigned ∧
    decode 0x006E0A0C0E000200 = .error .reservedBit := by decide

/-! ## Small states -/

/-- The load's wave with given registers: register, thread, value. -/
def wave (xs : List (Nat × (Lane → Word))) : Wave :=
  { waveAt loadImage 0 256 32 false 0 0 0 with
    regs := xs.foldl (fun v x => v.setIfInBounds x.1 { Register.launch with elems := Vector.ofFn x.2 }) (Vector.replicate 256 Register.launch) }

/-- Registers that hold one value in every thread. -/
def uniform (xs : List (Nat × Word)) : List (Nat × (Lane → Word)) := xs.map (fun x => (x.1, fun _ => x.2))

/-- The load's group with one wave. -/
def group (w : Wave) : Group := { loadGroup with waves := [w] }

/-- A device right after reset, where nothing stays queued, in which slot 0 of a group's first wave issues. -/
def issuing (g : Group) : State := { State.reset with devState := .running, groups := [(1, g)], cur := some loadSlot, deferred := false }

/-- The same with the load's page tables and partition in place: the first 512 MiB map to themselves. -/
def mapped (g : Group) : State := { State.reset.placeWord 0 with groups := [(1, g)], cur := some loadSlot, agenda := [], deferred := false }

/-- The slot that issues. -/
def slot (g : Group) (w : Wave) : Here := ⟨1, g, 0, w, 0⟩

/-- A state of registers, and its slot. -/
def regs (xs : List (Nat × (Lane → Word))) : State := issuing (group (wave xs))

/-- The slot that issues in a state of registers. -/
def at_ (xs : List (Nat × (Lane → Word))) : Here := slot (group (wave xs)) (wave xs)

/-- The next state of an outcome. -/
def next (o : Host.Outcome State Fault Refusal) : Option State := match o with
  | .next t => some t
  | .fault _ => none
  | .refused _ => none

/-- What a thread reads of a register after an instruction. -/
def reads (i : Instr) (s : State) (r : Nat) (t : Lane) : Option Word := (next (exec i s)).bind (fun t' => (t'.waveOf 1 0).map (fun w => w.read r t))

/-- A predicate after an instruction. -/
def preds (i : Instr) (s : State) (p : PredNo) (t : Lane) : Option Bool := (next (exec i s)).bind (fun t' => (t'.waveOf 1 0).map (fun w => w.pred p t))

/-- TCAUSE, TADDR and TMASK after an instruction. -/
def traps (i : Instr) (s : State) : Option (Nat × Nat × Nat) := (next (exec i s)).bind (fun t' => (t'.waveOf 1 0).map (fun w =>
  (w.frame.cause.toNat, w.frame.addr.toNat, w.frame.mask.toNat)))

/-- The pc of slot 0 and EXEC after an instruction. -/
def goes (i : Instr) (s : State) : Option (Nat × Nat) := (next (exec i s)).bind (fun t' => (t'.waveOf 1 0).map (fun w =>
  ((w.slots[(0 : Fin 2)]).pc.toNat, (w.slots[(0 : Fin 2)]).exec.toNat)))

/-! ## One step: integer and logic -/

/-- R104: the sum wraps; with SAT it stops at the largest integer. -/
theorem test_iadd : let s := regs (uniform [(6, 0x7FFFFFFF), (7, 1)])
    reads (.iadd on 5 6 7 false false) s 5 3 = some 0x80000000 ∧ reads (.iadd on 5 6 7 true false) s 5 3 = some 0x7FFFFFFF := by decide +kernel

/-- R106: a 64-bit addition in two words: the carry of the low sum enters the high one. -/
theorem test_iaddc : let s := regs (uniform [(6, 0xFFFFFFFF), (7, 2)])
    reads (.iaddc on 5 6 7 1 false) s 5 0 = some 1 ∧ preds (.iaddc on 5 6 7 1 false) s 1 0 = some true := by decide +kernel

/-- R108: the high half of (−1)·(−1), signed and unsigned. -/
theorem test_imulh : let s := regs (uniform [(6, 0xFFFFFFFF), (7, 0xFFFFFFFF)])
    reads (.imulh on 5 6 7 false) s 5 0 = some 0 ∧ reads (.imulh on 5 6 7 true) s 5 0 = some 0xFFFFFFFE := by decide +kernel

/-- R112: BLUT 0x96 is the exclusive or of three words. -/
theorem test_blut : reads (.blut on 4 1 2 3 0x96) (regs (uniform [(1, 0xF0), (2, 0xCC), (3, 0xAA)])) 4 9 = some 0x96 := by decide +kernel

/-- R113: a count of 33 shifts by 1, with CL by 32. -/
theorem test_shl : let s := regs (uniform [(6, 3), (7, 33)])
    reads (.shl on 5 6 7 false) s 5 0 = some 6 ∧ reads (.shl on 5 6 7 true) s 5 0 = some 0 := by decide +kernel

/-- R117: −1 is less than 1, and unsigned it is not. -/
theorem test_icmp : let s := regs (uniform [(6, 0xFFFFFFFF), (7, 1)])
    preds (.icmp on 2 6 7 0 .lt .none false false) s 2 4 = some true ∧ preds (.icmp on 2 6 7 0 .lt .none false true) s 2 4 = some false := by decide +kernel

/-! ## Floating point -/

/-- R120: 1 + 2 = 3, and the largest number doubled overflows to infinity. -/
theorem test_fadd : reads (.fadd on 5 6 7 .rne) (regs (uniform [(6, 0x3F800000), (7, 0x40000000)])) 5 0 = some 0x40400000 ∧
    reads (.fadd on 5 6 7 .rne) (regs (uniform [(6, 0x7F7FFFFF), (7, 0x7F7FFFFF)])) 5 0 = some 0x7F800000 := by decide +kernel

/-- R126: 2^31 as an FP32 converts to the largest S32; R47: 1/3 rounds to nearest. -/
theorem test_cvt : reads (.cvt on 5 6 .rne false .s32 .f32 false) (regs (uniform [(6, 0x4F000000)])) 5 0 = some 0x7FFFFFFF ∧
    reads (.frcp on 5 6 .rne) (regs (uniform [(6, 0x40400000)])) 5 0 = some 0x3EAAAAAB := by decide +kernel

/-- R84: both slots of a pair word read before either writes. -/
theorem test_pair : let i : Instr := .pairIadd ⟨on, 8, .reg 9⟩ ⟨.mov, ⟨on, 13, .reg 8⟩⟩
    let s := regs (uniform [(8, 5), (9, 7)])
    reads i s 8 0 = some 12 ∧ reads i s 13 0 = some 5 := by decide +kernel

/-! ## Lanes, lays and ternary -/

/-- R132: thread 4 reads thread 5's value. -/
theorem test_shflx : reads (.shflx on 4 2 .w32 1) (regs [(2, fun t => BitVec.ofNat 32 (100 + t.val))]) 4 4 = some 105 := by decide +kernel

/-- R143: 2^24, 1, 1 and −2^24 add to exactly 2. -/
theorem test_gred : reads (.gred on 4 2 .fadd .w4 .rne) (regs [(2, fun t =>
    match t.val % 4 with | 0 => 0x4B800000 | 3 => 0xCB800000 | _ => 0x3F800000)]) 4 1 = some 0x40000000 := by decide +kernel

/-- R139: an entry of bit 31 makes a thread VOID, and any other above 31 traps ILLEGAL_OPCODE. -/
theorem test_laywr : reads (.laywr on 4 2) (regs (uniform [(2, 0x80000000), (4, 9)])) 4 7 = some 0 ∧
    traps (.laywr on 4 2) (regs (uniform [(2, 32)])) = some (Cause.illegalOpcode.code, 0, 0xFFFFFFFF) := by decide +kernel

/-- R200: TRPK packs ten trits of two bits into a base-3 pattern, and a code 2 traps TRIT_CODE. -/
theorem test_trpk : reads (.trpk on 4 2) (regs (uniform [(2, 0xC000010D)])) 4 0 = some 0x02000058 := by decide +kernel

/-! ## Control -/

/-- R147: half the threads take the branch; the rest go on, in the other order if they are fewer. -/
theorem test_bra : goes (.bra ⟨false, 7⟩ (-16) 8) (regs (uniform [])) = some (0x10000 - 128, 0xFFFFFFFF) := by decide +kernel

/-- R151: the last threads exit, and the wave has ended. -/
theorem test_exit : ((next (exec (.exit on) (regs (uniform [])))).bind (fun t => (t.waveOf 1 0).map (fun w => w.ended))) = some true := by decide +kernel

/-- R218: TRAP has its code in TADDR. -/
theorem test_trap : traps (.trap on 0x1234) (regs (uniform [])) = some (Cause.software.code, 0x1234, 0xFFFFFFFF) := by decide +kernel

/-! ## Memory -/

/-- R162: a word stored and a byte loaded with its sign, at addresses that map to themselves. -/
theorem test_store_load : ((next (exec (.st on 8 4 (mem .w .global) 0) (mapped (group (wave [(4, fun t => BitVec.ofNat 32 (0x40000 + 4 * t.val)),
      (8, fun _ => 0x80)]))))).map (fun s => reads (.ld on 9 4 (mem .b .global .rlx .wave true) 0) { s with cur := some loadSlot } 9 5)) = some (some 0xFFFFFF80) := by
  decide +kernel

/-- R157: an odd address of a word access traps MISALIGNED with the address in TADDR. -/
theorem test_misaligned : traps (.ld on 9 4 (mem .w .global) 0) (mapped (group (wave (uniform [(4, 0x40001)])))) =
    some (Cause.misaligned.code, 0x40001, 0xFFFFFFFF) := by decide +kernel

/-- R163: scratch space holds what was stored. -/
theorem test_scratch : ((next (exec (.sts on 8 4 (mem .w .scratch) 0) (mapped (group (wave [(4, fun t => BitVec.ofNat 32 (4 * t.val)),
      (8, fun t => BitVec.ofNat 32 (7 * t.val))]))))).map (fun s => reads (.lds on 9 4 (mem .w .scratch) 0) { s with cur := some loadSlot } 9 5)) = some (some 35) := by decide +kernel

/-- A wave of whose threads only some are in EXEC. -/
def few (m : Mask) (xs : List (Nat × (Lane → Word))) : Wave :=
  { wave xs with slots := #v[{ PathSlot.empty with live := true, pc := 0x10000, exec := m, hold := ~~~m }, PathSlot.empty] }

/-- R168, R169: an atomic addition leaves the sum and returns what the word held. -/
theorem test_atom : ((next (exec (.atom on 9 4 8 ⟨.add, .rlx, .device, false, false⟩ 4) (mapped (group (few 1 (uniform [(4, 0x40000), (8, 3)])))))).map (fun s =>
      let s := { s with cur := some loadSlot }
      (reads (.nop on) s 9 0, reads (.atom on 9 4 8 ⟨.add, .rlx, .device, false, false⟩ 4) s 9 0))) = some (some 0, some 3) := by decide +kernel

/-! ## Special registers and the matrix array -/

/-- R18: TID reads each thread's number. -/
theorem test_sysrd : reads (.sysrd on 1 0) (regs (uniform [])) 1 17 = some 17 := by decide +kernel

/-- R215: AFLIP of row 5, column 9, bit 20 of a tile. -/
theorem test_aflip : (((next (exec (.aflip on 6 1) (let s := regs (uniform [(6, 0x00028125)])
    { s with cores := vmod s.cores 0 (fun c => { c with owner := some 1 }) }))).map (fun t =>
      ((((t.core 0).tiles[(1 : Fin 4)]).el 5 9).x.toNat, (((t.core 0).tiles[(1 : Fin 4)]).el 5 8).x.toNat)))) = some (2 ^ 20, 0) := by decide +kernel

/-- R230: without an event the count of good steps goes up; at its end the scale doubles. -/
theorem test_lsupd : ((next (exec (.lsupd on 2 1) (regs (uniform [])))).bind (fun t => (Map.find t.groups 1).map (fun g => (g.lscale.toNat, g.lscnt.toNat)))) =
    some (0x40000000, 0) := by decide +kernel

/-! ## What the small states are -/

theorem wave_reg (xs : List (Nat × (Lane → Word))) (r : Nat) : ∃ e, (wave xs).reg r = { Register.launch with elems := e } := by
  have key : ∀ (ys : List (Nat × (Lane → Word))) (v : Vector Register 256), (∀ r, ∃ e, vget v r Register.launch = { Register.launch with elems := e }) →
      ∃ e, vget (ys.foldl (fun v x => v.setIfInBounds x.1 { Register.launch with elems := Vector.ofFn x.2 }) v) r Register.launch =
        { Register.launch with elems := e } := by
    intro ys
    induction ys with
    | nil => intro v hv; exact hv r
    | cons y ys ih =>
      intro v hv
      refine ih _ (fun q => ?_)
      obtain ⟨e, he⟩ := hv q
      by_cases hq : q < 256 <;> by_cases hy : y.1 = q
      · exact ⟨Vector.ofFn y.2, by simp [vget, hq, hy]⟩
      · exact ⟨e, by rw [← he]; simp [vget, hq, hy]⟩
      · exact ⟨Register.launch.elems, by simp [vget, hq]⟩
      · exact ⟨Register.launch.elems, by simp [vget, hq]⟩
  refine key xs _ (fun q => ⟨Register.launch.elems, ?_⟩)
  by_cases hq : q < 256 <;> simp [vget, hq]

theorem wave_laysOk (xs : List (Nat × (Lane → Word))) : (wave xs).LaysOk := by
  refine ⟨⟨?_, ?_, ?_⟩, ?_, ?_⟩
  · intro r b h; obtain ⟨e, he⟩ := wave_reg xs r; rw [he] at h; exact absurd h (by simp [Register.launch])
  · intro b r h; obtain ⟨e, he⟩ := wave_reg xs b; rw [he] at h; exact absurd h (by simp [Register.launch])
  · intro b; obtain ⟨e, he⟩ := wave_reg xs b; rw [he]; simp [Register.launch]
  · intro t _; show LocMap.identity[t] = some t; simp [LocMap.identity]
  · intro r h; obtain ⟨e, he⟩ := wave_reg xs r; rw [he] at h; exact absurd h (by simp [Register.launch])

theorem wave_alive (xs : List (Nat × (Lane → Word))) : (wave xs).alive = ~~~(~~~(Mask.below 32) ||| 0) := rfl

theorem issues_wave {s : State} {g : Group} (xs : List (Nat × (Lane → Word))) (hs : s.here = some (slot g (wave xs))) (hb : s.beyond = none) :
    Issues s (slot g (wave xs)) := by
  refine ⟨hs, hb, wave_laysOk xs, fun t _ => ?_⟩
  show Mask.has (wave xs).alive t = true
  rw [wave_alive]; clear * -; revert t; decide +kernel

theorem here_regs (xs : List (Nat × (Lane → Word))) : (regs xs).here = some (at_ xs) := rfl

theorem issues_regs (xs : List (Nat × (Lane → Word))) : Issues (regs xs) (at_ xs) := issues_wave xs rfl rfl

theorem laysOk_congr {w w' : Wave} (hr : w.regs = w'.regs) (ha : w.alive = w'.alive) (hz : w.z5 = w'.z5) (h : w'.LaysOk) : w.LaysOk := by
  have R : ∀ r, w.reg r = w'.reg r := fun r => by unfold Wave.reg; rw [hr]
  have D : ∀ r t, w.read r t = w'.read r t := fun r t => by unfold Wave.read Wave.baseOf; simp only [R]
  have I : w.ident = w'.ident := by unfold Wave.ident; rw [hz]
  refine ⟨⟨?_, ?_, ?_⟩, ?_, ?_⟩
  · simpa only [R] using h.borrows.base
  · simpa only [R] using h.borrows.back
  · simpa only [R] using h.borrows.nodup
  · unfold Wave.Placed; rw [ha, I]; exact h.placed
  · simpa only [R, D, ha] using h.uniform

theorem laysOk_slots (w : Wave) (p : Vector PathSlot 2) (h : w.LaysOk) : Wave.LaysOk { w with slots := p } :=
  laysOk_congr (w' := w) rfl rfl rfl h

theorem alive_slots (w : Wave) (p : Vector PathSlot 2) : Wave.alive { w with slots := p } = w.alive := rfl

theorem issues_few {s : State} {g : Group} (m : Mask) (xs : List (Nat × (Lane → Word))) (hs : s.here = some (slot g (few m xs)))
    (hb : s.beyond = none) : Issues s (slot g (few m xs)) := by
  refine ⟨hs, hb, laysOk_slots _ _ (wave_laysOk xs), fun t _ => ?_⟩
  show Mask.has (few m xs).alive t = true
  have : (few m xs).alive = ~~~(~~~(Mask.below 32) ||| 0) := (alive_slots (wave xs) _).trans (wave_alive xs)
  rw [this]; clear * -; revert t; decide +kernel

/-! ## Every statement's hypotheses are met: register words, lays and control -/

theorem meets_IntegerWordsResult : ∃ (s : State) (h : Here) (i : _) (g : _) (f : _), Issues s h ∧ i.wf = true ∧ intResult h.w i = some (g, f) ∧ Mask.has (h.cov g) 0 = true ∧
    h.w.Sees (usesOf i).1 0 :=
  ⟨regs [], at_ [], .iadd on 5 6 7 false false, _, _, issues_regs _, by decide, rfl, by decide +kernel, by unfold Wave.Sees; decide +kernel⟩

theorem meets_AddWithCarry : ∃ (s : State) (h : Here), Issues s h := ⟨regs [], at_ [], issues_regs _⟩

theorem meets_FloatWordsResult : ∃ (s : State) (h : Here) (i : _) (g : _) (f : _), Issues s h ∧ i.wf = true ∧ fpResult h.w.fpctl i = some (g, f) ∧ Mask.has (h.cov g) 0 = true ∧
    h.w.Sees (usesOf i).1 0 :=
  ⟨regs [], at_ [], .fadd on 5 6 7 .rne, _, _, issues_regs _, by decide, rfl, by decide +kernel, by unfold Wave.Sees; decide +kernel⟩

theorem meets_ResultLays : ∃ (s : State) (h : Here) (i : _) (g : _) (lay : _), Issues s h ∧ i.wf = true ∧ (∃ f, intResult h.w i = some (g, f)) ∧ h.cov g ≠ 0 ∧
    h.w.SharesLay (h.cov g) (usesOf i).2 (usesOf i).1 lay :=
  ⟨regs [], at_ [], .iadd on 5 6 7 false false, on, LocMap.identity, issues_regs _, by decide, ⟨_, rfl⟩, by decide +kernel,
    by unfold Wave.SharesLay; decide +kernel⟩

/-- A word that covers no thread but some shares no lay. -/
theorem meets_ResultLays_partial : ∃ (s : State) (h : Here) (i : _) (g : _), Issues s h ∧ i.wf = true ∧ (∃ f, intResult h.w i = some (g, f)) ∧ h.cov g ≠ 0 ∧
    ¬ ∃ lay, h.w.SharesLay (h.cov g) (usesOf i).2 (usesOf i).1 lay := by
  refine ⟨issuing (group (few 1 [])), slot (group (few 1 [])) (few 1 []), .iadd on 5 6 7 false false, on, ?_, by decide, ⟨_, rfl⟩, by decide +kernel, ?_⟩
  · exact issues_few 1 [] rfl rfl
  · rintro ⟨lay, h, -⟩
    have := h 1 (by decide +kernel)
    revert this; decide +kernel

theorem meets_PairWordsResult : ∃ (s : State) (h : Here) (op : _) (x : _) (y : _), Issues s h ∧ pairWf op x y = true :=
  ⟨regs [], at_ [], .iadd, ⟨on, 8, .reg 9⟩, ⟨.fmul, ⟨on, 13, .reg 14⟩⟩, issues_regs _, by decide⟩

theorem meets_LaneWordsResult : ∃ (s : State) (h : Here) (i : _) (g : _) (vd : _) (dead : _) (f : _), Issues s h ∧ i.wf = true ∧ laneResult h i = some (g, vd, dead, f) :=
  ⟨regs [], at_ [], .voteBallot on 4 1, _, _, _, _, issues_regs _, by decide, rfl⟩

theorem meets_PredicateWordsResult : ∃ (s : State) (h : Here) (i : _) (g : _) (wr : _) (v : _), s.here = some h ∧ predResult h i = some (g, wr, v) :=
  ⟨regs [], at_ [], .icmp on 1 2 3 0 .lt .none false false, _, _, _, rfl, rfl⟩

theorem meets_FloatArithmeticRoundsOnce : ∃ c a b d : Word, (num32 c a).isFin = true ∧ (num32 c b).isFin = true ∧ (num32 c d).isFin = true :=
  ⟨0, 0x3F800000, 0x40000000, 0, by decide +kernel⟩

theorem meets_MapEditsMoveLays : ∃ (s : State) (h : Here) (i : _) (g : _) (vd : _) (vs : _) (src : _), Issues s h ∧ i.wf = true ∧ editFrom h i = some (g, vd, vs, src) :=
  ⟨regs [], at_ [], .shflx on 4 2 .w32 1, _, _, _, _, issues_regs _, by decide, rfl⟩

/-- LAYWR of the last element and of the first value that traps. -/
theorem meets_LayWordsSetLays : (∃ (s : State) (h : Here), s.here = some h ∧ h.w.read 2 0 = 31) ∧ ∃ (s : State) (h : Here), s.here = some h ∧ h.w.read 2 0 = 32 ∧ Mask.has (h.cov on) 0 = true :=
  ⟨⟨regs (uniform [(2, 31)]), at_ (uniform [(2, 31)]), rfl, by decide +kernel⟩,
    ⟨regs (uniform [(2, 32)]), at_ (uniform [(2, 32)]), rfl, by decide +kernel, by decide +kernel⟩⟩

theorem meets_TernaryWordsPack : ∃ (s : State) (h : Here) (i : _) (g : _) (vd : _) (va : _) (ok : _) (packs : _), Issues s h ∧ i.wf = true ∧ tritResult i = some (g, vd, va, ok, packs) ∧
    (∀ q, Mask.has (0 : Mask) q = true ↔ Mask.has (h.cov g) q = true ∧ ¬ ok (h.w.read va.toNat q)) :=
  ⟨regs [], at_ [], .trpk on 4 2, _, _, _, _, _, issues_regs _, by decide, rfl, by decide +kernel⟩

theorem ok_of {α β : Type} {o : Option (Except α β)} (h : o.map Except.isOk = some true) : ∃ w, o = some (.ok w) := by
  cases o with
  | none => cases h
  | some x => cases x with
    | error e => cases h
    | ok w => exact ⟨w, rfl⟩

theorem error_of {α β : Type} {o : Option (Except α β)} (h : o.map Except.isOk = some false) : ∃ e, o = some (.error e) := by
  cases o with
  | none => cases h
  | some x => cases x with
    | error e => exact ⟨e, rfl⟩
    | ok w => cases h

/-- NOP, and BRX of an address that is no multiple of 8. -/
theorem meets_SlotWordsGoOn : (∃ (s : State) (h : Here) (i : Instr), s.here = some h ∧ ∃ p, slotResult h i = some (.ok p)) ∧
    ∃ (s : State) (h : Here) (i : Instr), s.here = some h ∧ ∃ tr, slotResult h i = some (.error tr) :=
  ⟨⟨regs [], at_ [], .nop on, rfl, ok_of (by decide +kernel)⟩,
    ⟨regs (uniform [(2, 1)]), at_ (uniform [(2, 1)]), .brx on 2, rfl, error_of (by decide +kernel)⟩⟩

/-- CALL, and RET with an empty stack. -/
theorem meets_PathWordsFollowTheStack : (∃ (s : State) (h : Here) (i : Instr), s.here = some h ∧ ∃ w, pathResult h i s.nextId = some (.ok w)) ∧
    ∃ (s : State) (h : Here) (i : Instr), s.here = some h ∧ ∃ t, pathResult h i s.nextId = some (.error t) :=
  ⟨⟨regs [], at_ [], .call on 8, rfl, ok_of (by decide +kernel)⟩, ⟨regs [], at_ [], .ret on, rfl, error_of (by decide +kernel)⟩⟩

theorem meets_ExitEndsThreads : ∃ (s : State) (h : Here), s.here = some h ∧ h.cov on ≠ 0 ∧ s.pathPerformed h = true ∧ h.w.faults = [] ∧
    s.unanswered h.ctx h.wv h.w.slots[h.k] = false ∧ s.unperformed h.g.core h.ctx h.wv = false :=
  ⟨regs [], at_ [], rfl, by decide +kernel, by decide +kernel, rfl, by decide +kernel, by decide +kernel⟩

/-- SPAWN of the first word of the code. -/
theorem meets_SpawnFillsBins : ∃ (s : State) (h : Here), s.here = some h ∧ h.cov on ≠ 0 ∧ h.w.halt ≠ .handler ∧ h.g.core < Config.cores ∧
    (h.w.read64 2 0).toNat = 0x10000 ∧ s.pathPerformed h = true ∧
    (s.core h.g.core).bins.length + Mask.count ((h.cov on &&& 1) &&& ~~~h.w.slots[h.k].spawned) ≤ 8 :=
  ⟨regs (uniform [(2, 0x10000)]), at_ (uniform [(2, 0x10000)]), rfl, by decide +kernel, by decide +kernel, by decide +kernel, by decide +kernel,
    by decide +kernel, by decide +kernel⟩

/-- SPAWN of an address that is no multiple of 8, and of the word after the code. -/
theorem meets_SpawnFillsBins_trap : ((at_ (uniform [(2, 0x10001)])).w.read64 2 0).toNat % 8 = 1 ∧
    ((at_ (uniform [(2, 0x11000)])).w.read64 2 0).toNat = loadImage.code.toNat + loadImage.codeLen := by decide +kernel

/-! ## Memory words -/

theorem any_of {α : Type} {o : Option α} {p : α → Bool} (h : o.any p = true) : ∃ x, o = some x ∧ p x = true := by
  cases o with
  | none => cases h
  | some x => exact ⟨x, rfl, h⟩

/-- `State.sound` of a place, computed. -/
def soundAt (s : State) (part : Nat) (t : Target) (n : Nat) : Bool := match t with
  | .dev ga key => (List.range n).all (fun i => s.clean part (ga + i) key)
  | .host a => (List.range n).all (fun i => !s.badHost.contains ((a + i) / 64))
  | .scratch ctx off => (Map.find s.groups ctx).all (fun g => (List.range n).all (fun i => !g.badScratch.contains ((off + i) / 4)))
  | .share gang off => (Map.find s.gangs gang).all (fun x => (List.range n).all (fun i => !x.badScratch.contains ((off + i) / 4)))
  | .mmio _ => false
  | .peer _ _ => false

theorem sound_of {s : State} {part : Nat} {t : Target} {n : Nat} (h : soundAt s part t n = true) : s.sound part t n := by
  unfold soundAt at h; unfold State.sound
  cases t with
  | scratch ctx off => intro g hg; dsimp only at h; rw [hg] at h; simpa using h
  | dev ga key => simpa using h
  | host a => simpa using h
  | share gang off => intro x hx; dsimp only at h; rw [hx] at h; simpa using h
  | mmio a => cases h
  | peer w a => cases h

/-- Every place a word's covered threads use is there and can be read. -/
def placesSound (m : MemWord) (s : State) (part : Nat) (at_ : Lane → Nat → Option Target) : Bool :=
  (List.finRange 32).all (fun q => !Mask.has m.cov q || (m.usedRuns q).all (fun run => (at_ q run.1).any (fun p => soundAt s part p run.2)))

theorem places_of {m : MemWord} {s : State} {part : Nat} {at_ : Lane → Nat → Option Target} (h : placesSound m s part at_ = true) :
    ∀ q, Mask.has m.cov q = true → ∀ run ∈ m.usedRuns q, ∃ p, at_ q run.1 = some p ∧ s.sound part p run.2 := by
  intro q hq run hr
  have h1 := List.all_eq_true.mp h q (List.mem_finRange q)
  rw [hq, Bool.not_true, Bool.false_or] at h1
  obtain ⟨p, hp, hs⟩ := any_of (List.all_eq_true.mp h1 run hr)
  exact ⟨p, hp, sound_of hs⟩

/-- The translation of a word's pages finds every one. -/
def found (m : MemWord) (s : State) (h : Here) : State × Attempt := s.takeId.attempt h.g.core h.g.part h.g.asid m m.cov (m.pages m.cov)

/-- The leaves found. -/
def leaves (a : Attempt) : Leaves := match a with
  | .ready ls => ls
  | .park _ => []
  | .denied _ _ => []

/-- It found them. -/
def isReady (a : Attempt) : Bool := match a with
  | .ready _ => true
  | .park _ => false
  | .denied _ _ => false

theorem ready_eq {x : State × Attempt} (h : isReady x.2 = true) : x = (x.1, .ready (leaves x.2)) := by
  obtain ⟨s, a⟩ := x; cases a <;> simp_all [isReady, leaves]

/-- The state of the global accesses: every thread's own word at 0x40000. -/
def words : State := mapped (group (wave [(4, fun t => BitVec.ofNat 32 (0x40000 + 4 * t.val))]))
def wordsAt : Here := slot (group (wave [(4, fun t => BitVec.ofNat 32 (0x40000 + 4 * t.val))])) (wave [(4, fun t => BitVec.ofNat 32 (0x40000 + 4 * t.val))])

theorem words_issue : Issues words wordsAt := issues_wave _ rfl rfl

/-- A place in device memory under key 1. -/
def underKey1 (t : Target) : Bool := match t with
  | .dev _ k => k == 1
  | .host _ | .mmio _ | .peer _ _ | .scratch _ _ | .share _ _ => false

/-- A word may go ahead to global memory, its places sound and under key 1. -/
theorem granted_global {s : State} {h : Here} {i : Instr} (good : MemWord → (Lane → Nat → Option Target) → Bool) (hd : s.deferred = false)
    (h1 : (accessOf s h i).any (fun m => good m ((found m s h).1.goes h.g.part (leaves (found m s h).2) m) && isReady (found m s h).2 &&
      placesSound m (found m s h).1 h.g.part ((found m s h).1.goes h.g.part (leaves (found m s h).2) m) &&
      (List.finRange 32).all (fun q => !Mask.has m.cov q || (m.usedRuns q).all (fun run =>
        ((found m s h).1.goes h.g.part (leaves (found m s h).2) m q run.1).any underKey1))) = true)
    (h2 : (accessOf s h i).all (fun m => decide (m.cov ≠ 0 ∧
      (∀ t : Lane, ¬ (Mask.has m.cov t = true ∧ m.spec.kind ≠ .ldu ∧ m.spec.kind ≠ .stu ∧ m.addrs[t].toNat % m.spec.size ≠ 0)) ∧
      s.heldBack h m = false ∧ s.awaited h.g.core s.nextId = 0 ∧ s.remoteFullFor h.g.core h.ctx h.g m = false ∧ m.spec.space = .global ∧
      ∀ t : Lane, ¬ (Mask.has m.cov t = true ∧ m.offsets t ≠ [] ∧ (m.addrs[t].toInt < -2 ^ 56 ∨ 2 ^ 56 ≤ m.addrs[t].toInt)))) = true) :
    ∃ (s1 : State) (m : MemWord) (at_ : Lane → Nat → Option Target), accessOf s h i = some m ∧ good m at_ = true ∧
      m.Granted s h s1 at_ ∧ (∀ q, Mask.has m.cov q = true → ∀ run ∈ m.usedRuns q, ∃ p, at_ q run.1 = some p ∧ s1.sound h.g.part p run.2) ∧
      ∀ q, Mask.has m.cov q = true → ∀ run ∈ m.usedRuns q, ∃ p, at_ q run.1 = some p ∧ underKey1 p = true := by
  obtain ⟨m, hm, hp⟩ := any_of h1
  rw [hm] at h2
  obtain ⟨hc, ho, hh, hw, hf, hs, ht⟩ := of_decide_eq_true h2
  rw [Bool.and_eq_true, Bool.and_eq_true, Bool.and_eq_true] at hp
  obtain ⟨⟨⟨hg, hr⟩, hl⟩, hk⟩ := hp
  refine ⟨_, m, _, hm, hg, ⟨hc, ho, hh, hd, hw, fun _ => hf, .inr ⟨hs, ht, _, ready_eq hr, rfl⟩⟩, places_of hl, ?_⟩
  intro q hq run hrun
  have h3 := List.all_eq_true.mp hk q (List.mem_finRange q)
  rw [hq, Bool.not_true, Bool.false_or] at h3
  exact any_of (List.all_eq_true.mp h3 run hrun)

theorem near_of {p : Target} (ctx : Nat) (h : underKey1 p = true) : p.near ctx 1 := by
  cases p <;> simp_all [underKey1, Target.near]

theorem meets_LoadsReadMemory : ∃ (s1 : State) (m : MemWord) (at_ : Lane → Nat → Option Target), Issues words wordsAt ∧
    (Instr.ld on 9 4 (mem .w .global) 0).wf = true ∧ accessOf words wordsAt (.ld on 9 4 (mem .w .global) 0) = some m ∧ m.spec.kind = .load ∧
    m.Granted words wordsAt s1 at_ ∧ ∀ q, Mask.has m.cov q = true → ∀ run ∈ m.usedRuns q, ∃ p, at_ q run.1 = some p ∧ s1.sound 0 p run.2 := by
  obtain ⟨s1, m, p, h⟩ := granted_global (s := words) (h := wordsAt) (i := .ld on 9 4 (mem .w .global) 0) (fun m _ => m.spec.kind == .load) rfl
    (by decide +kernel) (by decide +kernel)
  exact ⟨s1, m, p, words_issue, by decide, h.1, by simpa using h.2.1, h.2.2.1, h.2.2.2.1⟩

theorem meets_StoresWriteMemory : ∃ (s1 : State) (m : MemWord) (at_ : Lane → Nat → Option Target), Issues words wordsAt ∧
    (Instr.st on 9 4 (mem .w .global) 0).wf = true ∧ accessOf words wordsAt (.st on 9 4 (mem .w .global) 0) = some m ∧ m.spec.kind = .store ∧
    m.Granted words wordsAt s1 at_ ∧ ∀ q, Mask.has m.cov q = true → ∀ run ∈ m.usedRuns q, ∃ p, at_ q run.1 = some p ∧ p.near 1 1 := by
  obtain ⟨s1, m, p, h⟩ := granted_global (s := words) (h := wordsAt) (i := .st on 9 4 (mem .w .global) 0) (fun m _ => m.spec.kind == .store) rfl
    (by decide +kernel) (by decide +kernel)
  exact ⟨s1, m, p, words_issue, by decide, h.1, by simpa using h.2.1, h.2.2.1, fun q hq run hr => by
    obtain ⟨x, hx, hn⟩ := h.2.2.2.2 q hq run hr; exact ⟨x, hx, near_of 1 hn⟩⟩

/-- Two threads, each with its own word of a page of memory. -/
def twoWave : Wave := few 3 [(4, fun t => BitVec.ofNat 32 (0x40000 + 4 * t.val))]
def two : State := mapped (group twoWave)
def twoAt : Here := slot (group twoWave) twoWave

/-- Address of a place. -/
def placeAddr (o : Option Target) : Option Nat := o.bind Target.devAddr

theorem meets_AtomicsUpdateMemory : ∃ (s1 : State) (m : MemWord) (at_ : Lane → Nat → Option Target) (place : Lane → Target), Issues two twoAt ∧
    (Instr.atom on 9 4 8 ⟨.add, .rlx, .device, false, false⟩ 0).wf = true ∧
    accessOf two twoAt (.atom on 9 4 8 ⟨.add, .rlx, .device, false, false⟩ 0) = some m ∧ m.spec.kind = .atom ∧ m.Granted two twoAt s1 at_ ∧
    (m.pages m.cov).length = 1 ∧
    (∀ q, Mask.has m.cov q = true → at_ q 0 = some (place q) ∧ (place q).near 1 1 ∧ s1.sound 0 (place q) m.spec.size) ∧
    (∀ q r, Mask.has m.cov q = true → Mask.has m.cov r = true → q ≠ r → (place q).Apart m.spec.size (place r)) := by
  obtain ⟨s1, m, p, hm, hg, hgr, hs, hn⟩ := granted_global (s := two) (h := twoAt) (i := .atom on 9 4 8 ⟨.add, .rlx, .device, false, false⟩ 0)
    (fun m p => decide (m.spec.kind = .atom ∧ (m.pages m.cov).length = 1 ∧ m.cov = 3 ∧ m.spec.size = 4 ∧ m.usedRuns 0 = [(0, 4)] ∧ m.usedRuns 1 = [(0, 4)]) &&
      (placeAddr (p 0 0)).any (fun a => (placeAddr (p 1 0)).any (fun b => decide (a + 4 ≤ b)))) rfl (by decide +kernel) (by decide +kernel)
  rw [Bool.and_eq_true] at hg
  obtain ⟨⟨hk, hl, hc, hz, h0, h1⟩, ha⟩ := And.intro (of_decide_eq_true hg.1) hg.2
  have cov : ∀ q : Lane, Mask.has m.cov q = true → q = 0 ∨ q = 1 := by rw [hc]; clear * -; decide +kernel
  have run : ∀ q, Mask.has m.cov q = true → (0, 4) ∈ m.usedRuns q := by
    intro q hq; rcases cov q hq with rfl | rfl <;> simp [h0, h1]
  have at0 : ∀ q, Mask.has m.cov q = true → p q 0 = some ((p q 0).getD (.dev 0 0)) := by
    intro q hq; obtain ⟨x, hx, -⟩ := hs q hq _ (run q hq); rw [hx]; rfl
  obtain ⟨a, hpa, ha⟩ := any_of ha
  obtain ⟨b, hpb, hab⟩ := any_of ha
  have hab : a + 4 ≤ b := by simpa using hab
  refine ⟨s1, m, p, fun q => (p q 0).getD (.dev 0 0), issues_few 3 _ rfl rfl, by decide, hm, hk, hgr, hl, ?_, ?_⟩
  · intro q hq
    obtain ⟨x, hx, hsx⟩ := hs q hq _ (run q hq)
    obtain ⟨y, hy, hny⟩ := hn q hq _ (run q hq)
    have : x = y := by rw [hx] at hy; exact Option.some.inj hy
    subst this
    have e : (p q 0).getD (.dev 0 0) = x := by rw [show p q 0 = some x from hx]; rfl
    refine ⟨at0 q hq, ?_, ?_⟩
    · show ((p q 0).getD (.dev 0 0)).near 1 1
      rw [e]; exact near_of 1 hny
    · show s1.sound 0 ((p q 0).getD (.dev 0 0)) m.spec.size
      rw [e, hz]; exact hsx
  · have dev : ∀ q x, placeAddr (p q 0) = some x → ∃ k, (p q 0).getD (.dev 0 0) = .dev x k := by
      intro q x h
      cases hq : p q 0 with
      | none => rw [hq] at h; cases h
      | some t => rw [hq] at h; cases t <;> simp_all [placeAddr, Target.devAddr]
    obtain ⟨k, hk0⟩ := dev 0 a hpa
    obtain ⟨l, hl1⟩ := dev 1 b hpb
    intro q r hq hr hne
    dsimp only
    rcases cov q hq with rfl | rfl <;> rcases cov r hr with rfl | rfl
    · exact absurd rfl hne
    · rw [hk0, hl1, hz]; exact .inl hab
    · rw [hk0, hl1, hz]; exact .inr hab
    · exact absurd rfl hne

/-- LD2S of two threads' words into the scratchpad, counted against block barrier 5: the destinations touch. -/
def moveWave : Wave := few 3 [(4, fun t => BitVec.ofNat 32 (0x40000 + 4 * t.val)), (6, fun _ => 5), (8, fun t => BitVec.ofNat 32 (4 * t.val))]
def move : State := mapped (group moveWave)
def moveAt : Here := slot (group moveWave) moveWave

/-- The access of that LD2S. -/
def moveWord : MemWord :=
  { moveAt.memWord move on ⟨.ld2s, .global, 4, false, .rlx, .wave, .add, [], false⟩
      (Vector.ofFn (fun t => moveAt.w.read64 4 t + BitVec.ofInt 64 0)) [] 4 [4, 5, 8, 6] with aux := moveAt.w.readRow 8, bar := 5 }

theorem meets_Ld2sCopiesToScratch : ∃ (s1 : State) (at_ : Lane → Nat → Option Target), Issues move moveAt ∧
    (Instr.ld2s on 6 4 8 (mem .w .global) 0).wf = true ∧ moveWord.Granted move moveAt s1 at_ ∧
    (∀ q, Mask.has (moveAt.cov on) q = true → moveAt.w.read 6 q = 5) ∧
    (∀ q, Mask.has (moveAt.cov on) q = true → let d := (moveAt.w.read 8 q).toNat; d % 4 = 0 ∧ d + 4 ≤ moveAt.g.image.scratch ∧ d < 2 ^ 30 ∧
      ∃ p, at_ q 0 = some p ∧ s1.sound 0 p 4) ∧
    (∀ q r, Mask.has (moveAt.cov on) q = true → Mask.has (moveAt.cov on) r = true → q ≠ r →
      (moveAt.w.read 8 q).toNat + 4 ≤ (moveAt.w.read 8 r).toNat ∨ (moveAt.w.read 8 r).toNat + 4 ≤ (moveAt.w.read 8 q).toNat) := by
  have hr : isReady (found moveWord move moveAt).2 = true := by decide +kernel
  have hl : placesSound moveWord (found moveWord move moveAt).1 0 ((found moveWord move moveAt).1.goes 0
      (leaves (found moveWord move moveAt).2) moveWord) = true := by decide +kernel
  have ho : ∀ t : Lane, ¬ (Mask.has moveWord.cov t = true ∧ moveWord.spec.kind ≠ .ldu ∧ moveWord.spec.kind ≠ .stu ∧
      moveWord.addrs[t].toNat % moveWord.spec.size ≠ 0) := by decide +kernel
  have ht : ∀ t : Lane, ¬ (Mask.has moveWord.cov t = true ∧ moveWord.offsets t ≠ [] ∧
      (moveWord.addrs[t].toInt < -2 ^ 56 ∨ 2 ^ 56 ≤ moveWord.addrs[t].toInt)) := by decide +kernel
  have hc : moveWord.cov = 3 := by decide +kernel
  have hq : moveAt.cov on = 3 := by decide +kernel
  have hu : moveWord.usedRuns 0 = [(0, 4)] ∧ moveWord.usedRuns 1 = [(0, 4)] := by decide +kernel
  have two : ∀ q : Lane, Mask.has (3 : Mask) q = true → q = 0 ∨ q = 1 := by decide +kernel
  refine ⟨_, _, issues_few 3 _ rfl rfl, by decide, ⟨by rw [hc]; decide, ho, by decide +kernel, rfl, by decide +kernel, fun _ => by decide +kernel,
    .inr ⟨rfl, ht, _, ready_eq hr, rfl⟩⟩, by decide +kernel, ?_, by decide +kernel⟩
  intro q h
  rw [hq] at h
  have hd : ∀ q : Lane, (moveAt.w.read 8 q).toNat % 4 = 0 ∧ (moveAt.w.read 8 q).toNat + 4 ≤ moveAt.g.image.scratch ∧ (moveAt.w.read 8 q).toNat < 2 ^ 30 := by
    decide +kernel
  refine ⟨(hd q).1, (hd q).2.1, (hd q).2.2, ?_⟩
  refine places_of hl q (by rw [hc]; exact h) (0, 4) ?_
  rcases two q h with rfl | rfl <;> simp [hu.1, hu.2]

/-- An access off its size by one; one whose first byte lies past the scratchpad, and one whose last lies in it; one at the first address that is
not canonical. -/
theorem meets_MemoryWordsCheck : ∃ (s : State) (h : Here) (i : Instr) (m : MemWord), s.here = some h ∧ s.beyond = none ∧ accessOf s h i = some m ∧
    m.spec.space ≠ .window ∧ m.cov ≠ 0 ∧ Mask.has m.cov 0 = true ∧ m.spec.kind = .load ∧ m.addrs[(0 : Lane)].toNat % m.spec.size = 1 := by
  obtain ⟨m, hm, hp⟩ := any_of (o := accessOf (regs (uniform [(4, 0x40001)])) (at_ (uniform [(4, 0x40001)])) (.ld on 9 4 (mem .w .global) 0))
    (p := fun m => decide (m.spec.space ≠ .window ∧ m.cov ≠ 0 ∧ Mask.has m.cov 0 = true ∧ m.spec.kind = .load ∧
      m.addrs[(0 : Lane)].toNat % m.spec.size = 1)) (by decide +kernel)
  exact ⟨_, _, _, m, here_regs _, rfl, hm, of_decide_eq_true hp⟩

/-- Whether thread 0's scratch load from an address is permitted, all else being well. -/
def scratchLoad (x : Word) : Option Bool := (accessOf (regs (uniform [(4, x)])) (at_ (uniform [(4, x)])) (.lds on 9 4 (mem .w .scratch) 0)).bind (fun m =>
  if Mask.has m.cov 0 && m.misaligned == 0 then some ((regs (uniform [(4, x)])).scratchPermits 1 loadGroup m 0) else none)

theorem meets_MemoryWordsCheck_scratch : scratchLoad 0x3FFFC = some true ∧ scratchLoad 0x40000 = some false := by decide +kernel

/-- Whether thread 0's global load from a high half is above the canonical addresses, all else being well. -/
def wildLoad (x : Word) : Option Bool := (accessOf (regs (uniform [(5, x)])) (at_ (uniform [(5, x)])) (.ld on 9 4 (mem .w .global) 0)).bind (fun m =>
  if Mask.has m.cov 0 && m.misaligned == 0 && decide (m.offsets 0 ≠ []) then some (decide (2 ^ 56 ≤ m.addrs[(0 : Lane)].toInt)) else none)

theorem meets_MemoryWordsCheck_wild : wildLoad 0x00FFFFFF = some false ∧ wildLoad 0x01000000 = some true := by decide +kernel

/-- A pending store holds back a releasing one of its slot. -/
theorem meets_MemoryWordsCheck_held : let s := regs []
    (accessOf s (at_ []) (.st on 9 4 (mem .w .global .rel .device) 0)).any (fun m => m.cov != 0 && m.misaligned == 0 &&
      { s with cores := vmod s.cores 0 (fun c => { c with reqs := [(7, m)] }) }.heldBack (at_ []) m) = true := by decide +kernel

theorem meets_CacheWordsKeepValues : ∃ (s : State) (h : Here), s.here = some h ∧ s.beyond = none := ⟨regs [], at_ [], rfl, rfl⟩

/-- A word that is denied, one that parks, and one that may go ahead: a store to a page the leaf does not map, or maps. -/
theorem meets_MemoryWordsWait : ∃ (m : MemWord) (s1 : State) (a : Attempt), Issues words wordsAt ∧
    accessOf words wordsAt (.st on 9 4 (mem .w .global) 0) = some m ∧ m.cov ≠ 0 ∧ (∀ q, ¬ m.Off q) ∧ (∀ q, ¬ m.Wild q) ∧
    words.heldBack wordsAt m = false ∧ m.spec.space = .global ∧ m.spec.kind.atomic = false ∧
    words.takeId.attempt wordsAt.g.core wordsAt.g.part wordsAt.g.asid m m.cov (m.pages m.cov) = (s1, a) ∧ s1.beyond = none := by
  obtain ⟨s1, m, p, hm, hg, hgr, -⟩ := granted_global (s := words) (h := wordsAt) (i := .st on 9 4 (mem .w .global) 0)
    (fun m _ => decide (m.spec.space = .global ∧ m.spec.kind.atomic = false ∧ (found m words wordsAt).1.beyond = none)) rfl
    (by decide +kernel) (by decide +kernel)
  obtain ⟨h1, h2, h3⟩ := of_decide_eq_true hg
  have hw : ∀ q, ¬ m.Wild q := by
    rcases hgr.place with h | h
    · rw [h1] at h; exact absurd h.1 (by decide)
    · exact h.2.1
  exact ⟨m, _, _, words_issue, hm, hgr.some, hgr.aligned, hw, hgr.free, h1, h2, Prod.mk.eta.symm, h3⟩

/-- A page that is not mapped parks its word. -/
theorem meets_MemoryWordsWait_park : let w := wave (uniform [(4, 0x40000000)])
    (accessOf (mapped (group w)) (slot (group w) w) (.st on 9 4 (mem .w .global) 0)).any (fun m =>
      match (found m (mapped (group w)) (slot (group w) w)).2 with | .park m1 => m1.parked | .ready _ => false | .denied _ _ => false) = true := by
  decide +kernel

/-- A store that joins the queued requests, and a scratch load. -/
theorem meets_MemoryWordsWait_queued : ({ words with deferred := true } : State).here = some wordsAt ∧
    (accessOf { words with deferred := true } wordsAt (.st on 9 4 (mem .w .global) 0)).any (fun m =>
      isReady (found m { words with deferred := true } wordsAt).2 && !{ words with deferred := true }.heldBack wordsAt m &&
      !({ words with deferred := true } : State).remoteFullFor 0 1 wordsAt.g m) = true ∧
    scratchLoad 0 = some true := by decide +kernel

/-! ## Encoding, and one step -/

theorem meets_DecodeAndEncodeAgree : (∃ i : Instr, i.wf = true ∧ i.isWord = true) ∧ (∃ i : Instr, i.wf = true ∧ i.isWord = false) ∧
    ∃ (x : BitVec 64) (i : Instr), decode x = .ok i :=
  ⟨⟨.nop on, by decide, by decide⟩, ⟨.issue 0 0, by decide, by decide⟩, 0x006E0A0C0E000000, .iadd on 5 6 7 false false, by decide⟩

/-- A device that is about to issue IADD v5, v6, v7. -/
def fetching : State := State.reset.placeWord 0x006E0A0C0E000000

/-- The same when its slot has been chosen, and when the word has been fetched. -/
def chosen : State := { fetching with agenda := [], cur := some loadSlot }
def fetchedPage : State := (chosen.translate 0 0 0 0x10000).1
def fetchedBytes : List Byte := bytesOf 8 0x006E0A0C0E000000
def fetched : State := fetchedPage.modCore 0 (fun c => c.cacheWord 0 0x10000 (wordOfBytes fetchedBytes))

/-- Its slot. -/
def fetchAt : Here := ⟨1, loadGroup, 0, waveAt loadImage 0 256 32 false 0 0 0, 0⟩

theorem fetches : fetchAt.Fetches fetching chosen fetched fetchedBytes := by
  have ok : ∃ l, chosen.translate 0 0 0 0x10000 = (fetchedPage, .ok l) ∧ (fetchedPage.granted 0 l .fetch 0 0x10000).any (fun t =>
      soundAt fetchedPage 0 t 8 && (List.range 8).all (fun i => fetchedBytes[i]? == some (fetchedPage.byteAt t i))) = true := by
    have h : (match (chosen.translate 0 0 0 0x10000).2 with
      | .ok l => (fetchedPage.granted 0 l .fetch 0 0x10000).any (fun t =>
          soundAt fetchedPage 0 t 8 && (List.range 8).all (fun i => fetchedBytes[i]? == some (fetchedPage.byteAt t i)))
      | .error _ => false) = true := by decide +kernel
    have e : chosen.translate 0 0 0 0x10000 = (fetchedPage, (chosen.translate 0 0 0 0x10000).2) := Prod.mk.eta.symm
    cases hx : (chosen.translate 0 0 0 0x10000).2 with
    | error x => rw [hx] at h; cases h
    | ok l => rw [hx] at h e; exact ⟨l, e, h⟩
  obtain ⟨l, hl, hb⟩ := ok
  obtain ⟨t, ht, hc⟩ := any_of hb
  rw [Bool.and_eq_true] at hc
  refine ⟨⟨[], rfl, rfl, by decide +kernel⟩, rfl, by decide +kernel, by decide +kernel, by decide +kernel, by decide +kernel, by decide +kernel, rfl, ⟨by decide, 0x10000, fetchedPage, l, t, by decide +kernel, by decide +kernel,
    by decide +kernel, hl, ht, sound_of hc.1, ?_, ?_, rfl⟩⟩
  · intro i hi
    have := List.all_eq_true.mp hc.2 i (List.mem_range.mpr hi)
    simpa using this
  · have : (fetchedPage.core 0).cachedWord 0 0x10000 = none := by decide +kernel
    intro x hx; rw [show (fetchedPage.core fetchAt.g.core).cachedWord fetchAt.g.asid fetchAt.pc = none from this] at hx; cases hx

theorem meets_StepRunsDecoded : fetchAt.Fetches fetching chosen fetched fetchedBytes ∧
    decodeIn fetchAt.g.image.mode (wordOfBytes fetchedBytes) = .ok (.iadd on 5 6 7 false false) ∧
    fetched.decodeCheck fetchAt (.iadd on 5 6 7 false false) = none ∧ fetched.heldWord fetchAt (.iadd on 5 6 7 false false) = false ∧ fetchAt.w.consumers fetchAt.k (.iadd on 5 6 7 false false) = 0 :=
  ⟨fetches, by decide +kernel, by decide +kernel, by decide +kernel, by decide +kernel⟩

/-- A word that is no instruction, one that names v255 and one that names the first register a wave of 32 lacks. -/
theorem meets_StepRunsDecoded_undecodable : (∃ e, decodeIn 0 0x600E000000000000 = .error e) ∧ decodeIn 0 0x006E0A0C40000000 = .ok (.iadd on 5 6 32 false false) ∧
    (∃ r ∈ namedOf (.iadd on 5 6 32 false false), 32 ≤ r) :=
  ⟨⟨.unassigned, by decide⟩, by decide, by decide⟩

/-- The step that such words end in differs from the one above in the word alone. -/
theorem test_step_illegal : ((next (step (State.reset.placeWord 0x600E000000000000))).bind (fun t => (t.waveOf 1 0).map (fun w => w.frame.cause.toNat))) =
    some Cause.illegalOpcode.code := by decide +kernel

/-- The load's tables: a root, an entry of each level and a leaf of 512 MiB. -/
theorem meets_WalkReadsFourLevels : let s := mapped (group (wave []))
    s.Holds 0 8 0x1000 ∧ s.Holds 0 0x1000 0x2001 ∧ TableEntry 4096 0x2001 0x2000 ∧ s.Holds 0 0x2000 0x3001 ∧ TableEntry 4096 0x3001 0x3000 ∧
    s.Holds 0 0x3000 0x81F ∧ DeviceLeaf 1 (2 ^ 29) (s.part 0).space 0x81F := by
  refine ⟨?_, ?_, ?_, ?_, ?_, ?_, ?_⟩
  · unfold State.Holds; decide +kernel
  · unfold State.Holds; decide +kernel
  · unfold TableEntry; decide
  · unfold State.Holds; decide +kernel
  · unfold TableEntry; decide
  · unfold State.Holds; decide +kernel
  · unfold DeviceLeaf; decide +kernel

/-- Leaves of 64 KiB and 2 MiB, at their alignment and off it. -/
theorem meets_WalkReadsFourLevels_leaves : DeviceLeaf 0 (2 ^ 16) (2 ^ 30) 0x81F ∧ DeviceLeaf 0 (2 ^ 21) (2 ^ 30) 0x40081F ∧ ¬ DeviceLeaf 0 (2 ^ 21) (2 ^ 30) 0x1040081F ∧
    TableEntry 65536 0x30001 0x30000 := by
  refine ⟨?_, ?_, ?_, ?_⟩
  · unfold DeviceLeaf; decide
  · unfold DeviceLeaf; decide
  · unfold DeviceLeaf; decide
  · unfold TableEntry; decide

/-! ## What every step keeps -/

theorem meets_MemoryFormAndFloorsKept : ∃ s t : State, Memory.wf s.mem = true ∧ Memory.wf s.hostMem = true ∧ step s = .next t := by
  have h : (next (step fetching)).isSome = true := by decide +kernel
  obtain ⟨t, ht⟩ := Option.isSome_iff_exists.mp h
  refine ⟨fetching, t, by decide +kernel, by decide, ?_⟩
  cases hs : step fetching with
  | next u => rw [hs] at ht; exact congrArg _ (Option.some.inj ht)
  | fault f => rw [hs] at ht; cases ht
  | refused r => rw [hs] at ht; cases ht

/-! ## Steps and barriers -/

theorem step_of {s : State} (h : (next (step s)).isSome = true) : ∃ t, step s = .next t := by
  obtain ⟨t, ht⟩ := Option.isSome_iff_exists.mp h
  refine ⟨t, ?_⟩
  cases hs : step s with
  | next u => rw [hs] at ht; exact congrArg _ (Option.some.inj ht)
  | fault f => rw [hs] at ht; cases ht
  | refused r => rw [hs] at ht; cases ht

theorem wave_sound (xs : List (Nat × (Lane → Word))) : (wave xs).Sound := by
  refine ⟨wave_laysOk xs, fun b => ?_, fun _ k t h => ?_, fun _ => rfl⟩
  · obtain ⟨e, he⟩ := wave_reg xs b; rw [he]; simp [Register.launch]
  · rw [wave_alive]; clear * -; revert t; decide +kernel

/-- A step of a device that holds a sound wave. -/
theorem meets_SoundKept : ∃ s t : State, s.Sound ∧ s.everyWave ≠ [] ∧ step s = .next t := by
  let s : State := { fetching with groups := [(1, group (wave (uniform [(6, 1)])))] }
  obtain ⟨t, h⟩ := step_of (s := s) (by decide +kernel)
  refine ⟨s, t, ⟨?_, ?_, ?_⟩, by decide +kernel, h⟩
  · intro w hw
    have e : s.everyWave = [wave (uniform [(6, 1)])] := by decide +kernel
    rw [e] at hw; rw [List.mem_singleton.mp hw]; exact wave_sound _
  · have e : s.everyWord = [] := by decide +kernel
    rw [e]; intro x hx; cases hx
  · have e : s.remote = [] := by decide +kernel
    rw [e]; intro x hx; cases hx

/-- Misuse: a cluster barrier of a launch that has none, and a wait before any arrival. -/
theorem meets_BarriersCheckAndWait : ∃ (s : State) (h : Here), s.here = some h ∧ s.beyond = none ∧
    barrierWord (.barSync on 0 0 .cluster 7 none) = some (on, .cluster, 7, true, none, none) ∧ h.cov on ≠ 0 ∧ h.NoBarrier .cluster ∧
    ¬ h.NoBarrier .block ∧ s.clearAt h .block 15 ∧ ¬ s.misused h .block 15 (h.cov on) none ∧
    (∀ t, Mask.has (h.cov on) t = true → Map.find h.w.lastArrival (arrivalKey .block (h.barOf .block t) 15) = none) := by
  refine ⟨regs [], at_ [], rfl, rfl, rfl, by decide +kernel, .inr (.inr (.inl ⟨rfl, rfl⟩)), ?_, ⟨?_, fun _ => by decide +kernel⟩, ?_, ?_⟩
  · unfold Here.NoBarrier; decide +kernel
  · intro f hf; exact absurd hf.1 (by show f ∉ []; simp)
  · have : ∀ t, Mask.has ((regs []).barSeen .block ((at_ []).barOf .block t) 15 |>.of (waveKey 1 0)) t = false ∧
      ((regs []).barSeen .block ((at_ []).barOf .block t) 15).kind = none := by decide +kernel
    rintro ⟨t, -, h | ⟨k, h, -⟩⟩
    · exact absurd ((this t).1.symm.trans h) (by decide)
    · rw [(this t).2] at h; cases h
  · decide +kernel

/-- A wave that has arrived at phase 0 of a block barrier. -/
def arrived : Wave := { wave [] with lastArrival := [(arrivalKey .block 1 3, 0)] }

/-- BAR.wait that waits, and one in a later phase that goes on. -/
theorem meets_BarrierWaitsComplete : let s := issuing (group arrived)
    let h := slot (group arrived) arrived
    s.here = some h ∧ s.beyond = none ∧ ¬ h.NoBarrier .block ∧ h.w.faults = [] ∧ (s.bar .block 1 3).overflow = false ∧ Mask.has (h.cov on) 0 = true ∧
    Map.find arrived.lastArrival (arrivalKey .block ((slot (group arrived) arrived).barOf .block 0) 3) = some 0 ∧ (s.bar .block 1 3).phase ≤ 0 ∧
    let t := s.modBar .block 1 3 (fun b => { b with phase := 1 })
    ¬ (t.bar .block 1 3).phase ≤ 0 :=
  ⟨rfl, rfl, by unfold Here.NoBarrier; decide +kernel, rfl, by decide +kernel, by decide +kernel, by decide +kernel, by decide +kernel, by decide +kernel⟩

/-- BAR.exp of wave barrier 15, and a BARTX that would overflow. -/
theorem meets_BarrierWaitsComplete_counts : ∃ (s : State) (h : Here), s.here = some h ∧ h.cov on ≠ 0 ∧ h.w.halt ≠ .handler ∧
    h.w.dissenting (h.cov on) [2] = 0 ∧ (∀ t, Mask.has (h.cov on) t = true → h.barOf .wave t = 1) ∧
    2 ^ 31 ≤ (s.bar .block h.ctx 2).tx + (h.w.agreed (h.cov on) 2).toInt := by
  refine ⟨(regs (uniform [(2, 1)])).modBar .block 1 2 (fun b => { b with tx := 2 ^ 31 - 1 }), ?_⟩
  refine ⟨_, rfl, ?_, ?_, ?_, ?_, ?_⟩ <;> decide +kernel

/-- BARTX.arr of a block barrier. -/
theorem meets_ArrivalsCount : ∃ (s : State) (h : Here), s.here = some h ∧ s.beyond = none ∧
    barrierWord (.bartx on 2 5 true) = some (on, .block, 5, true, none, some 2) ∧ h.cov on ≠ 0 ∧ ¬ h.NoBarrier .block ∧
    (∀ t, Mask.has (h.cov on) t = true → h.barOf .block t = 1) ∧ ¬ s.misused h .block 5 (h.cov on) none ∧ s.slotQuiet h = true ∧
    h.w.dissenting (h.cov on) [2] = 0 ∧ -2 ^ 31 ≤ (s.bar .block 1 5).tx + (h.w.agreed (h.cov on) 2).toInt ∧
    (s.bar .block 1 5).tx + (h.w.agreed (h.cov on) 2).toInt < 2 ^ 31 := by
  refine ⟨regs (uniform [(2, 64)]), at_ (uniform [(2, 64)]), rfl, rfl, rfl, by decide +kernel, ?_, by decide +kernel, ?_, by decide +kernel,
    by decide +kernel, by decide +kernel, by decide +kernel⟩
  · unfold Here.NoBarrier; decide +kernel
  · have : ∀ t, Mask.has ((regs (uniform [(2, 64)])).barSeen .block ((at_ (uniform [(2, 64)])).barOf .block t) 5 |>.of (waveKey 1 0)) t = false ∧
      ((regs (uniform [(2, 64)])).barSeen .block ((at_ (uniform [(2, 64)])).barOf .block t) 5).kind = none := by decide +kernel
    rintro ⟨t, -, h | ⟨k, h, -⟩⟩
    · exact absurd ((this t).1.symm.trans h) (by decide)
    · rw [(this t).2] at h; cases h

/-- A block barrier at which every thread of the group's one wave waits with a fuse. -/
def summing : Wave := { wave [] with slots := vmod (wave []).slots 0 (fun p =>
  { p with wait := some (.barrier .block 4 [(1, 0)] (some (9, 0xFFFFFFFF))) }) }
def gathered (m : Mask) : State := (issuing (group summing)).modBar .block 1 4 (fun b =>
  { b with arrived := [(waveKey 1 0, m)], kind := some (some ⟨.add, .rne⟩), parts := List.replicate 32 2 })

/-- One that is complete, one that lacks a thread, and one to which nobody came. -/
theorem meets_PhasesComplete : (gathered 0xFFFFFFFF).hasBarrier .block 1 4 ∧ (gathered 0xFFFFFFFF).Complete .block 1 ((gathered 0xFFFFFFFF).bar .block 1 4) ∧
    ¬ (gathered 0x7FFFFFFF).Complete .block 1 ((gathered 0x7FFFFFFF).bar .block 1 4) ∧
    ¬ (regs []).Complete .block 1 ((regs []).bar .block 1 15) := by
  have key : ∀ m : Mask, ((gathered m).bar .block 1 4).of (waveKey 1 0) = m := fun m => rfl
  have grp : ∀ m : Mask, ∃ g, Map.find (gathered m).groups 1 = some g ∧ g.waves = [summing] := fun m => ⟨_, rfl, rfl⟩
  have al : summing.alive = ~~~(~~~(Mask.below 32) ||| 0) := (alive_slots (wave []) _).trans (wave_alive [])
  refine ⟨⟨by decide, (grp _).imp (fun _ h => h.1)⟩, ⟨by decide +kernel, by decide +kernel, ?_⟩, ?_, ?_⟩
  · obtain ⟨g, hg, hw⟩ := grp 0xFFFFFFFF
    refine ⟨g, hg, fun w hi _ t _ => ?_⟩
    have : w = summing := by rw [hw] at hi; simpa using hi
    subst this; show Mask.has (((gathered 0xFFFFFFFF).bar .block 1 4).of (waveKey 1 0)) t = true
    rw [key]; clear * -; revert t; decide +kernel
  · rintro ⟨-, -, g, hg, h⟩
    obtain ⟨g', hg', hw⟩ := grp 0x7FFFFFFF
    rw [hg'] at hg; cases hg
    have := h summing (by rw [hw]; exact List.mem_singleton.mpr rfl) rfl 31 (by rw [al]; decide +kernel)
    change Mask.has (((gathered 0x7FFFFFFF).bar .block 1 4).of (waveKey 1 0)) 31 = true at this
    rw [key] at this; revert this; decide +kernel
  · rintro ⟨h, -⟩; revert h; decide +kernel

/-- The threads of the complete phase read the sum. -/
theorem test_barrier_sum : ((((gathered 0xFFFFFFFF).settleBar .block 1 4).waveOf 1 0).map (fun w => (w.read 9 7, w.slots[(0 : Fin 2)].wait.isSome))) =
    some (64, false) := by decide +kernel

/-! ## Exceptions and the system group -/

/-- The load's image with a handler at an offset. -/
def handled (g : Group) : Group := { g with image := { g.image with handler := some 0x100 } }

/-- A trap of the group's only wave, with and without a handler. -/
theorem meets_TakingATrap : ∃ (s : State) (h : Here), s.here = some h ∧ h.w.halt = .running ∧ ¬ h.g.mustStop h.wv ∧
    (∀ i v m c, i ≠ h.wv → h.g.waves[i]? = some v → v.halt ≠ .trapped m c) ∧ h.g.image.handler = some 0x100 := by
  refine ⟨issuing (handled (group (wave []))), slot (handled (group (wave []))) (wave []), rfl, rfl, ?_, ?_, rfl⟩
  · rintro ⟨i, w, hi, hw, -⟩
    cases i with
    | zero => exact hi rfl
    | succ n => simp [slot, handled, group] at hw
  · intro i v m c hi hv
    cases i with
    | zero => exact absurd rfl hi
    | succ n => simp [slot, handled, group] at hv

/-- One that has to stop a second wave first. -/
theorem meets_TakingATrap_siblings : ∃ g : Group, g.waves = [wave [], wave []] ∧ g.mustStop 0 :=
  ⟨{ loadGroup with waves := [wave [], wave []] }, rfl, 1, wave [], by decide, rfl, .inl ⟨rfl, rfl⟩⟩

/-- The cause, the pc and the mask that a trap saves, and where the handler starts. -/
theorem test_handler : (((next (exec (.bpt on 7) (issuing (handled (group (wave [])))))).bind (fun t => t.waveOf 1 0)).map (fun w =>
    (w.frame.cause.toNat, w.frame.pc.toNat, (w.slots[(0 : Fin 2)]).pc.toNat))) = some (Cause.breakpoint.code, 0x10000, 0x10100) := by decide +kernel

/-- A wave in its handler whose trapping word is to be skipped. -/
def handling (pc : Addr) : Wave := { wave [] with
  halt := .handler
  frame := { (wave []).frame with pc := pc }
  block := some ⟨(wave []).slots, [], 0, 0, 0x10000, none, 0, true, none, none, none⟩ }

theorem here_handling (pc : Addr) : (issuing (group (handling pc))).here = some (slot (group (handling pc)) (handling pc)) := rfl

/-- RTT to the next word, and to an address that is no multiple of 8. -/
theorem meets_ReturnFromTrap : ∃ (s : State) (h : Here) (b : Block), s.here = some h ∧ s.beyond = none ∧ h.w.halt = .handler ∧ h.w.block = some b ∧
    (h.w.frame.pc.toNat % 8 = 0 ∧ -2 ^ 56 ≤ h.w.frame.pc.toInt ∧ h.w.frame.pc.toInt < 2 ^ 56) ∧ s.blocksPass h.ctx ∧ h.w.whole b ∧
    (∀ x ∈ s.groups, x.1 = h.ctx → ∀ v ∈ x.2.waves, ∀ c, v.halt = .stopped → v.block = some c → v.whole c) ∧ ∀ id, b.entry = some id → Map.find (s.core h.g.core).log id = none := by
  refine ⟨_, _, _, here_handling 0x10008, rfl, rfl, rfl, by decide +kernel, ?_, ?_, ?_, by simp⟩
  · intro x hx _ i v c hi hv
    have e : (issuing (group (handling 0x10008))).groups = [(1, group (handling 0x10008))] := rfl
    rw [e] at hx; rw [List.mem_singleton.mp hx] at hi ⊢
    cases i with
    | zero =>
      have : v = handling 0x10008 := (Option.some.inj hi).symm
      subst this
      have : c = ⟨(wave []).slots, [], 0, 0, 0x10000, none, 0, true, none, none, none⟩ := (Option.some.inj hv).symm
      subst this
      decide +kernel
    | succ n => simp [group] at hi
  · unfold Wave.whole; decide +kernel
  · intro x hx _ v hv c hs _
    have e : (issuing (group (handling 0x10008))).groups = [(1, group (handling 0x10008))] := rfl
    rw [e] at hx; rw [List.mem_singleton.mp hx] at hv
    have : v = handling 0x10008 := List.mem_singleton.mp hv
    rw [this] at hs; cases hs

theorem meets_ReturnFromTrap_bad : (handling 0x10001).frame.pc.toNat % 8 = 1 ∧ (wave []).halt ≠ .handler := by decide

/-- A launch of one group. -/
def launch : Launch := { part := 0, node := 0, rcb := 0, record := 0, image := loadImage, asid := 0, path := [], prio := 3, podb := 0, bint := 0, priv := false, test := false, visible := 0, aged := 0, placed := 1, total := 1, ended := 0, verdict := none, closed := false, token := none, parent := none, children := [], started := [], results := [] }

/-- RTT.kill of a group whose launch is known. -/
theorem meets_ReturnFromTrap_kill : ∃ (s : State) (h : Here), s.here = some h ∧ h.w.halt = .handler ∧
    (Map.find s.launches h.g.launch).isSome = true ∧ h.g.core < Config.cores := by
    exact ⟨{ issuing (group (handling 0)) with launches := [(0, launch)] }, slot (group (handling 0)) (handling 0), rfl, rfl, rfl, by decide⟩

/-- The first word after the handled one, and EXEC again. -/
theorem test_rtt : goes (.rtt on) (issuing (group (handling 0x10008))) = some (0x10008, 0xFFFFFFFF) := by decide +kernel

/-- A store of 0x55 to 0x40000 that is parked, and a wave in the handler of its give-up. -/
def parked : MemWord := { (at_ []).memWord State.reset on ⟨.store, .global, 4, false, .rlx, .wave, .add, [], false⟩ (Vector.replicate 32 0x40000) [8] 4 [4, 5] with
  data := [Vector.replicate 32 0x55], parked := true }
def replayWave (pc : Addr) : Wave := { handling pc with
  regs := (wave (uniform [(4, 0x40000)])).regs
  block := some ⟨vmod (wave []).slots 0 (fun p => { p with pc := 0x10008 }), [], 0, 0, 0x10008, some 0, 0, true, none, none, none⟩ }
def replaying (pc : Addr) : State := { mapped (group (replayWave pc)) with
  cores := vmod (mapped (group (replayWave pc))).cores 0 (fun c => { c with log := [(0, parked)] }) }

/-- RTT with the word in the log: to the word itself, which may be performed and whose pages are there, to the next, and elsewhere. -/
theorem meets_ReturnFromTrap_replay : ∃ (h : Here) (b : Block) (m : MemWord), (replaying 0x10000).here = some h ∧ (replaying 0x10000).beyond = none ∧
    h.w.halt = .handler ∧ h.w.block = some b ∧ b.entry = some 0 ∧ Map.find ((replaying 0x10000).core h.g.core).log 0 = some m ∧
    (replaying 0x10000).awaited h.g.core 0 = 0 ∧ h.w.frame.pc = m.pc ∧ m.ctx = h.ctx ∧ m.wave = h.wv ∧ m.spec.space = .global ∧ m.spec.kind = .store ∧
    m.spec.dests = [] ∧ m.badLanes = 0 ∧ (replaying 0x10000).deferred = false ∧
    (replaying 0x10000).mayPerform h.g.core 0 (group (replayWave 0x10000)) { m with parked := false } = true ∧
    isReady ((replaying 0x10000).attempt h.g.core h.g.part h.g.asid { m with parked := false } m.cov (m.pages m.cov)).2 = true :=
  ⟨slot (group (replayWave 0x10000)) (replayWave 0x10000), _, parked, rfl, rfl, rfl, rfl, rfl, by decide +kernel, by decide +kernel, by decide +kernel, rfl, rfl, rfl,
    rfl, rfl, rfl, rfl, by decide +kernel, by decide +kernel⟩

/-- R300: the word at TPC is replayed and its slot goes on as it waited; elsewhere it is discarded. -/
theorem test_replay : let after (pc : Addr) := (next (exec (.rtt on) (replaying pc))).bind (fun s => let s := { s with cur := some loadSlot }
      (reads (.ld on 9 4 (mem .w .global) 0) s 9 5).map (fun x => (x.toNat, (s.waveOf 1 0).map (fun w => w.slots[(0 : Fin 2)].pc.toNat))))
    after 0x10000 = some (0x55, some 0x10008) ∧ after 0x10008 = some (0, some 0x10008) ∧ after 0x10040 = some (0, some 0x10040) := by decide +kernel

/-- The load's group without privilege. -/
def plain : Group := { group (wave []) with priv := false, test := false }

theorem meets_PrivilegedWordsAct : (∃ (s : State) (h : Here), s.here = some h ∧ s.beyond = none ∧ needsPrivilege h (.sysrd on 1 0x100) ∧
    needsPrivilege h (.icinv on 2 true) ∧ needsPrivilege h (.aflip on 2 0)) ∧
    ∃ (s : State) (h : Here), Issues s h ∧ h.g.priv = true ∧ h.cov on ≠ 0 ∧ h.w.dissenting (h.cov on) [2, 3] = 0 ∧
      h.w.dissenting (h.cov on) [2] = 0 ∧ s.asidActive h.g.part (h.w.agreed (h.cov on) 2).toNat = true ∧ s.waveQuiet h = true ∧ s.pathPerformed h = true ∧
      s.deferred = false ∧ (∀ b ∈ s.bumps, b.asid ≠ (h.w.agreed (h.cov on) 2).toNat) ∧ h.w.block = none := by
  refine ⟨⟨issuing plain, slot plain (wave []), rfl, rfl, ⟨rfl, by decide⟩, rfl, rfl⟩, mapped (group (wave [])), slot (group (wave [])) (wave []),
    issues_wave [] rfl rfl, rfl, by decide +kernel, by decide +kernel, by decide +kernel, by decide +kernel, by decide +kernel, by decide +kernel, by decide +kernel, ?_, rfl⟩
  have e : (mapped (group (wave []))).bumps = [] := by decide +kernel
  rw [e]; intro x hx; cases hx

/-- An address space that is not active, threads that dissent, and units that may and may not be tested. -/
theorem meets_PrivilegedWordsAct_more : (mapped (group (wave []))).asidActive 0 1 = false ∧
    (slot (group (wave [(2, fun t => BitVec.ofNat 32 t.val)])) (wave [(2, fun t => BitVec.ofNat 32 t.val)])).w.dissenting 0xFFFFFFFF [2] ≠ 0 ∧
    (regs []).refuses (unitOf 0 0x0300) = false ∧ (regs []).refuses (unitOf 0 0x1003) = false ∧ (unitOf 0 0x1003).cls = 1 ∧ (wave []).block = none ∧ ({ regs [] with tests := [⟨unitOf 0 0, none⟩] } : State).refuses (unitOf 0 0) = true := by
  refine ⟨?_, ?_, ?_, ?_, ?_, ?_, ?_⟩ <;> decide +kernel

/-- GENBUMP answers the new generation. -/
theorem test_genbump : reads (.genbump on 5 2) (mapped (group (wave []))) 5 3 = some 1 := by decide +kernel

theorem meets_SpecialRegisters : ∃ (s : State) (h : Here), Issues s h ∧ h.g.priv = true ∧
    (∀ q, (specials s h q).lookup 0x2A = none) ∧ (∀ q, (specials s h q).lookup 0x00 = some (BitVec.ofNat 32 q.val)) ∧
    ((written h.g h.wv h.w h.k 3).lookup 0x0C).isSome = true ∧ ((written h.g h.wv h.w h.k 3).lookup 0x0E).isNone = true ∧
    h.w.exec h.k &&& h.w.agreed (h.cov on) 2 ≠ 0 ∧ h.w.exec h.k &&& h.w.agreed (h.cov on) 3 = 0 := by
  refine ⟨regs (uniform [(2, 3)]), at_ (uniform [(2, 3)]), issues_regs _, rfl, ?_, ?_, ?_, ?_, ?_, ?_⟩ <;> decide +kernel

/-- EXEC narrowed by SYSWR. -/
theorem test_syswr : goes (.syswr on 2 0x0C) (regs (uniform [(2, 0xF0)])) = some (0x10008, 0xF0) := by decide +kernel

/-- PREEMPT.off with a budget and nothing held, EVREC, and HALT in privileged code. -/
theorem meets_SystemWordsAct : ∃ (s : State) (h : Here), s.here = some h ∧ s.beyond = none ∧ h.cov on ≠ 0 ∧ h.w.dissenting (h.cov on) [2] = 0 ∧
    h.g.budget ≠ 0 ∧ h.g.held = none ∧ h.g.stop = none ∧ h.g.priv = true ∧ h.w.halt = .running :=
  ⟨regs [], at_ [], rfl, rfl, by decide +kernel, by decide +kernel, by decide, rfl, rfl, rfl, rfl⟩

/-- A record of zeros breaks R22; one of an element of one byte in one dimension does not. -/
def record (xs : List Nat) : List (Nat × (Lane → Word)) := [(2, fun t => BitVec.ofNat 32 (xs[t.val]?.getD 0))]

theorem meets_ShapeRecordsAreChecked : ∃ (s t : State) (h h' : Here), s.here = some h ∧ s.beyond = none ∧ h.cov on ≠ 0 ∧ t.here = some h' ∧
    t.beyond = none ∧ shapeBad (BitVec.ofNat 512 (2 ^ 64)) = false ∧ (∀ j < 16, (BitVec.ofNat 512 (2 ^ 64)).extractLsb' (32 * j) 32 = h.w.read 2 (laneOf j)) ∧
    shapeBad 0 = true ∧ ∀ j < 16, (0 : BitVec 512).extractLsb' (32 * j) 32 = h'.w.read 2 (laneOf j) :=
  ⟨regs (record [0, 0, 1]), regs [], at_ (record [0, 0, 1]), at_ [], rfl, rfl, by decide +kernel, rfl, rfl, by decide +kernel, by decide +kernel,
    by decide +kernel, by decide +kernel⟩

/-- QSET of the good record takes it; of the bad one it traps. -/
theorem test_qset : (((next (exec (.qset on 3 2) (regs (record [0, 0, 1])))).bind (fun t => Map.find t.groups 1)).map (fun g =>
    vget g.shapes 3 0)) = some (BitVec.ofNat 512 (2 ^ 64)) ∧ traps (.qset on 3 2) (regs []) = some (Cause.engineShape.code, 0, 0xFFFFFFFF) := by decide +kernel

theorem meets_LossScaleStep : ∃ (s : State) (h : Here), Issues s h ∧ h.g.ovfl &&& 0xF = 0 := ⟨regs [], at_ [], issues_regs _, by decide⟩

/-- With an event the scale halves and the event clears. -/
theorem test_lsupd_event : (((next (exec (.lsupd on 2 1) (issuing { group (wave []) with ovfl := 0x14 }))).bind (fun t => Map.find t.groups 1)).map (fun g =>
    (g.lscale.toNat, g.ovfl.toNat))) = some (0x3F000000, 0x10) := by decide +kernel

/-! ## Engine commands -/

/-- A copy command on channel 2 that counts against no barrier. -/
def plainCopy : CopyMod := ⟨2, none⟩

/-- WVSEL of the last tag, and of the first that is none. -/
theorem meets_EngineCommandsIssue : ∃ (s : State) (h : Here) (c : EngineCommand), s.here = some h ∧ s.beyond = none ∧ (Instr.wvsel on 2).wf = true ∧
    engineCommand s h (.wvsel on 2) = some c ∧ h.cov c.guard ≠ 0 ∧ h.w.firstDissent (h.cov c.guard) c.operands = none ∧ c.refusal = none ∧
    s.slotQuiet h = true :=
  ⟨regs (uniform [(2, 7)]), at_ (uniform [(2, 7)]), _, rfl, rfl, by decide, rfl, by decide +kernel, by decide +kernel, by decide +kernel, by decide +kernel⟩

theorem meets_EngineCommandsIssue_refused : ((engineCommand (regs (uniform [(2, 8)])) (at_ (uniform [(2, 8)])) (.wvsel on 2)).bind EngineCommand.refusal).isSome = true ∧
    ((engineCommand (regs []) (at_ []) (.cpymc on 2 4 6 8 .add plainCopy)).bind EngineCommand.refusal).isSome = true ∧
    ((engineCommand (regs (uniform [(4, 16)])) (at_ (uniform [(4, 16)])) (.cpyLin on 2 3 4 plainCopy true true)).map (fun c => c.refusal.isNone)) = some true := by
  refine ⟨?_, ?_, ?_⟩ <;> decide +kernel

/-- Registers of a copy of 16 bytes from scratch address 0 to 0x100. -/
def copying : List (Nat × (Lane → Word)) := uniform [(2, 0x100), (4, 16)]

/-- A command that stays queued, and the same where nothing stays queued. -/
theorem meets_CopyCommandsComplete : ∃ (s : State) (h : Here) (i : Instr) (c : EngineCommand) (kind : CopyKind) (m : CopyMod),
    s.here = some h ∧ s.beyond = none ∧ i.wf = true ∧ engineCommand s h i = some c ∧ c.moves = some (kind, m) ∧ h.cov c.guard ≠ 0 ∧
    h.w.firstDissent (h.cov c.guard) c.operands = none ∧ c.refusal = none ∧ s.slotQuiet h = true ∧ s.deferred = true ∧
    (∀ x ∈ (s.core h.g.core).copies, x.id < s.nextId) ∧ (∀ o ∈ s.remote, o.2.cover.isSome = true → o.2.word < s.nextId) := by
  refine ⟨{ regs copying with deferred := true }, at_ copying, .cpyLin on 2 3 4 plainCopy true true, _, _, _, rfl, rfl, by decide, rfl, rfl,
    by decide +kernel, by decide +kernel, by decide +kernel, by decide +kernel, rfl, ?_, ?_⟩
  · rw [show (({ regs copying with deferred := true } : State).core (at_ copying).g.core).copies = [] by decide +kernel]; intro x hx; cases hx
  · rw [show ({ regs copying with deferred := true } : State).remote = [] from rfl]; intro x hx; cases hx

theorem meets_CopyCommandsComplete_carried : ∃ (s : State) (h : Here) (c : EngineCommand) (kind : CopyKind) (m : CopyMod),
    s.here = some h ∧ s.beyond = none ∧ engineCommand s h (.cpyLin on 2 3 4 plainCopy true true) = some c ∧ c.moves = some (kind, m) ∧ h.cov c.guard ≠ 0 ∧
    h.w.firstDissent (h.cov c.guard) c.operands = none ∧ c.refusal = none ∧ s.slotQuiet h = true ∧ s.deferred = false ∧ (s.startCopy h kind m).beyond = none :=
  ⟨regs copying, at_ copying, _, _, _, rfl, rfl, rfl, rfl, by decide +kernel, by decide +kernel, by decide +kernel, by decide +kernel, rfl, by decide +kernel⟩

/-- WVSEL of tag 7. -/
theorem meets_CopyCommandsComplete_wvsel : ∃ (s : State) (h : Here), s.here = some h ∧ s.beyond = none ∧ h.cov on ≠ 0 ∧ h.w.dissenting (h.cov on) [2] = 0 ∧
    (h.w.agreed (h.cov on) 2).toNat = 7 ∧ s.slotQuiet h = true :=
  ⟨regs (uniform [(2, 7)]), at_ (uniform [(2, 7)]), rfl, rfl, by decide +kernel, by decide +kernel, by decide +kernel, by decide +kernel⟩

theorem meets_LinearCopyMovesBytes : ∃ (s : State) (h : Here), Issues s h ∧ h.cov on ≠ 0 ∧ s.deferred = false ∧ plainCopy.bar = none ∧
    (∀ r ∈ [2, 3, 4], h.w.dissenting (h.cov on) [r] = 0) ∧ s.slotQuiet h = true ∧
    (∀ x ∈ (s.core h.g.core).copies, ¬ (x.ctx = h.ctx ∧ x.wave = h.wv) ∧ x.id < s.nextId) ∧ (∀ o ∈ s.remote, o.2.word < s.nextId) ∧
    h.g.badScratch = [] ∧ h.g.core < Config.cores ∧ h.w.block = none ∧ h.g.stopping = false ∧ (s.cluster (clusterOf h.g.core)).waiting = [] ∧
    (s.cluster (clusterOf h.g.core)).granted = [] ∧ (s.cluster (clusterOf h.g.core)).window + 64 * (((h.w.agreed (h.cov on) 4).toNat + 4095) / 4096) ≤
      (s.cluster (clusterOf h.g.core)).limit ∧ (h.w.agreed (h.cov on) 2).toNat = 0x100 ∧ (h.w.agreed (h.cov on) 3).toNat = 0 ∧
    (h.w.agreed (h.cov on) 4).toNat = 16 ∧ h.g.image.scratch = 262144 := by
  refine ⟨regs copying, at_ copying, issues_regs _, by decide +kernel, rfl, rfl, by decide +kernel, by decide +kernel, ?_, ?_, rfl, by decide, rfl, rfl, by decide +kernel, by decide +kernel,
    by decide +kernel, by decide +kernel, by decide +kernel, by decide +kernel, rfl⟩
  · rw [show ((regs copying).core (at_ copying).g.core).copies = [] by decide +kernel]; intro x hx; cases hx
  · rw [show (regs copying).remote = [] from rfl]; intro x hx; cases hx

/-- The bytes arrive and the write pointer stands after them. -/
theorem test_copy : (((next (exec (.cpyLin on 2 3 4 plainCopy true true) (issuing { group (wave copying) with scratch := [(5, 0xAB)] }))).bind (fun t => Map.find t.groups 1)).map
    (fun g => (Map.get g.scratch 0x105 0, g.waves.map (fun w => vget w.writePtr 2 0)))) = some (0xAB, [0x110]) := by decide +kernel

/-- Words written at partition physical addresses of the load's partition. -/
def tables (s : State) (xs : List (Nat × Nat)) : State := { s with mem := xs.foldl (fun m x => loadWordAt m ((s.part 0).place 0 x.1) x.2) s.mem }

/-- A page table whose first page is a twin page. -/
def twinPage : State := tables (mapped (group (wave []))) [(16, 0x5000), (32, 1), (0x3000, 0x30001), (0x30000, 0x2080F), (0x5000, 0), (0x5008, 2 ^ 28)]

/-- A twin page that may be published, and an ordinary one. -/
theorem meets_PagesAndCollectivesStart : ∃ (s : State) (h : Here) (l : Leaf), s.here = some h ∧ s.beyond = none ∧ h.cov on ≠ 0 ∧
    h.w.dissenting (h.cov on) [2, 3] = 0 ∧ s.slotQuiet h = true ∧ (h.w.agreed64 (h.cov on) 2).toNat = 0 ∧ s.walk h.g.part h.g.asid.toNat 0 = .ok l ∧
    l.back = 1 ∧ l.wr = true ∧ (s.part h.g.part).ownsKey l.key = true ∧ (s.core h.g.core).copies = [] := by
  have ok : ∃ l, twinPage.walk 0 0 0 = .ok l ∧ (decide (l.back = 1) && l.wr && (twinPage.part 0).ownsKey l.key) = true := by
    have h : (match twinPage.walk 0 0 0 with
      | .ok l => decide (l.back = 1) && l.wr && (twinPage.part 0).ownsKey l.key
      | .error _ => false) = true := by decide +kernel
    cases hx : twinPage.walk 0 0 0 with
    | error x => rw [hx] at h; cases h
    | ok l => rw [hx] at h; exact ⟨l, rfl, h⟩
  obtain ⟨l, hl, hb⟩ := ok
  simp only [Bool.and_eq_true, decide_eq_true_eq] at hb
  exact ⟨twinPage, slot (group (wave [])) (wave []), l, rfl, rfl, by decide +kernel, by decide +kernel, by decide +kernel, by decide +kernel, hl, hb.1.1, hb.1.2,
    hb.2, by decide +kernel⟩

/-- PUBL of an ordinary page, and of an address that is not canonical. -/
theorem test_publ : traps (.publ on 2) (mapped (group (wave []))) = some (Cause.permission.code, 0, 0xFFFFFFFF) ∧
    traps (.publ on 2) (mapped (group (wave (uniform [(3, 0x01000000)])))) = some (Cause.pageFault.code, 2 ^ 56, 0xFFFFFFFF) := by decide +kernel

/-- A record at 0x40000: one rank, sixteen elements. -/
def bucket : State := { tables (mapped (group (wave (uniform [(2, 0x40000)])))) [(0x40028, 16), (0x40030, 2 ^ 32)] with deferred := true }
def bucketAt : Here := slot (group (wave (uniform [(2, 0x40000)]))) (wave (uniform [(2, 0x40000)]))

theorem meets_PagesAndCollectivesStart_record : bucket.here = some bucketAt ∧ bucketAt.cov on ≠ 0 ∧ bucketAt.w.dissenting (bucketAt.cov on) [2, 3] = 0 ∧
    bucket.slotQuiet bucketAt = true ∧ bucket.colls = [] ∧ (∀ o ∈ bucket.remote, ¬ bucketAt.asks 3 o.2 = true) ∧
    ∃ s1 bs, bucket.engineRead ⟨0, 1, bucketAt.g, bucketAt.w.tag.toNat⟩ [] (.mem (bucketAt.w.agreed64 (bucketAt.cov on) 2)) 64 = (s1, .ok bs) ∧ s1.beyond = none ∧
      collBad (BitVec.ofNat 512 (leNat (bs.map Prod.fst))) = false := by
  refine ⟨rfl, by decide +kernel, by decide +kernel, by decide +kernel, rfl, ?_, ?_⟩
  · rw [show bucket.remote = [] by decide +kernel]; intro x hx; cases hx
  have h : (match bucket.engineRead ⟨0, 1, bucketAt.g, bucketAt.w.tag.toNat⟩ [] (.mem (bucketAt.w.agreed64 (bucketAt.cov on) 2)) 64 with
    | (s1, .ok bs) => decide (s1.beyond = none) && !collBad (BitVec.ofNat 512 (leNat (bs.map Prod.fst)))
    | (_, .error _) => false) = true := by decide +kernel
  cases hx : bucket.engineRead ⟨0, 1, bucketAt.g, bucketAt.w.tag.toNat⟩ [] (.mem (bucketAt.w.agreed64 (bucketAt.cov on) 2)) 64 with
  | mk s1 r =>
    rw [hx] at h
    cases r with
    | error e => cases h
    | ok bs =>
      dsimp only at h
      simp only [Bool.and_eq_true, decide_eq_true_eq, Bool.not_eq_true'] at h
      exact ⟨s1, bs, rfl, h.1, h.2⟩

/-- MWAIT of the open batch goes on, and of the next but one it traps. -/
theorem meets_EngineWaits : ∃ (s : State) (h : Here), Issues s h ∧ h.cov on ≠ 0 ∧ h.w.dissenting (h.cov on) [2] = 0 ∧ h.w.faults = [] ∧
    (h.w.batch - h.w.retired).toNat < 2 ^ 15 - 1 ∧ (h.w.agreed (h.cov on) 2).setWidth 16 = h.w.batch + 1 ∧
    (h.w.agreed (h.cov on) 3).setWidth 16 = h.w.batch ∧ (s.core h.g.core).copies = [] ∧ s.colls = [] ∧
    ({ s with deferred := true } : State).here = some h :=
  ⟨regs (uniform [(2, 1)]), at_ (uniform [(2, 1)]), issues_regs _, by decide +kernel, by decide +kernel, rfl, by decide +kernel, by decide +kernel,
    by decide +kernel, by decide +kernel, rfl, rfl⟩

/-- The waits go on where nothing is under way, and MWAIT of a batch long retired. -/
theorem meets_EngineWaits_done : ∃ (s : State) (h : Here), Issues s h ∧ (s.core h.g.core).copies = [] ∧ s.colls = [] ∧ h.w.faults = [] ∧
    (h.w.batch - h.w.retired).toNat < 2 ^ 15 - 1 ∧ h.w.batch = h.w.retired ∧ h.cov on ≠ 0 ∧ h.w.dissenting (h.cov on) [2] = 0 ∧
    2 ^ 15 ≤ ((h.w.agreed (h.cov on) 2).setWidth 16 - h.w.batch).toNat ∧ (h.w.agreed (h.cov on) 3).setWidth 16 = h.w.batch :=
  ⟨regs (uniform [(2, 0xFFFF)]), at_ (uniform [(2, 0xFFFF)]), issues_regs _, by decide +kernel, rfl, rfl, by decide +kernel, rfl, by decide +kernel,
    by decide +kernel, by decide +kernel, by decide +kernel⟩

/-- A batch that is not closed traps ENGINE_SHAPE. -/
theorem test_mwait : traps (.mwait on 2) (regs (uniform [(2, 1)])) = some (Cause.engineShape.code, 0, 0xFFFFFFFF) ∧
    (goes (.mwait on 3) (regs (uniform [(2, 1)]))).map Prod.fst = some 0x10008 := by decide +kernel

/-! ## Matrix words -/

/-- A device whose core 0's array is the group's, with requests queued. -/
def arrayOf (g : Group) : State := let s := issuing g
  { s with cores := vmod s.cores 0 (fun c => { c with owner := some 1 }), deferred := true }

theorem meets_MatrixWordsConverge : ∃ (s : State) (h : Here) (m : MatrixWord), s.here = some h ∧ s.beyond = none ∧ (Instr.aclr on 5 2).wf = true ∧
    matrixWord (.aclr on 5 2) = some m ∧ (s.core h.g.core).owner = some h.ctx ∧ ¬ h.Scattered m.guard ∧ h.cov m.guard ≠ 0 ∧
    h.w.dissenting (h.w.exec h.k) [m.format.toNat] = 0 ∧ ¬ IllegalFormat (h.w.agreed (h.w.exec h.k) m.format) m.grouped ∧
    h.w.firstDissent (h.w.exec h.k) m.operands = none := by
  refine ⟨arrayOf (group (wave [])), slot (group (wave [])) (wave []), _, rfl, rfl, by decide, rfl, by decide +kernel, ?_, by decide +kernel, by decide +kernel, ?_, rfl⟩
  · unfold Here.Scattered; decide +kernel
  · unfold IllegalFormat; decide +kernel

/-- Format words that are illegal, at the edges of their fields, and the last that is not. -/
theorem meets_MatrixWordsConverge_formats : IllegalFormat 0x20000 false ∧ IllegalFormat 0x30 false ∧ IllegalFormat 4 false ∧ IllegalFormat 0x10018 false ∧
    IllegalFormat 0x10000 true ∧ ¬ IllegalFormat 0x1002B true ∨ ¬ IllegalFormat 0x0002B true := by unfold IllegalFormat; decide

/-- MMA, TLD, MMAS and MMAG with operands of 0: their own checks pass. -/
theorem meets_MatrixWordsEnterOrder : (matrixEffect (at_ []) 0 (.mma on 8 16 4 5 0)).map (fun x => x.1) = some none ∧
    (matrixEffect (at_ (uniform [(4, 32)])) 0 (.mma on 8 16 4 5 0)).map (fun x => x.1) = some none ∧
    (matrixEffect (at_ (uniform [(4, 256)])) 0 (.mma on 8 16 4 5 0)).map (fun x => x.1) = some (some (Trap.named (at_ (uniform [(4, 256)])).w .engineShape 0xFFFFFFFF 4 0)) ∧
    (arrayOf (group (wave []))).slotQuiet (at_ []) = true ∧ ((arrayOf (group (wave []))).core 0).queue = [] ∧
    (∀ r < 32, (arrayOf (group (wave []))).outOfScratch (at_ []) (BitVec.ofNat 32 (0 * (r / 32) + 0 * (r % 32))) (rowBytes 0 32) = false) := by
  refine ⟨?_, ?_, ?_, ?_, ?_, ?_⟩ <;> decide +kernel

/-- Where nothing stays queued ACLR is carried out at once. -/
theorem meets_MatrixWordsEnterOrder_now : (((matrixEffect (at_ []) 0 (.aclr on 5 2)).map (fun x => (x.1, x.2.2))) = some (none, false)) ∧
    ((({ arrayOf (group (wave [])) with deferred := false } : State).joined (at_ []) (.aclr 0 2) none).runMatrix 0).beyond = none := by decide +kernel

/-- A descriptor at scratch address 0: one group of two rows. -/
def grouped : Group := { group (wave []) with scratch := [(0, 1), (4, 2)] }

theorem meets_MatrixWordsEnterOrder_groups : ∃ (s : State) (h : Here) (bs : List Byte), s.here = some h ∧ s.beyond = none ∧ (Instr.mmag on 2 3 4 5 0 0 0).wf = true ∧
    s.deferred = true ∧ (s.core h.g.core).owner = some h.ctx ∧ ¬ h.Scattered on ∧ h.cov on ≠ 0 ∧
    ¬ IllegalFormat (h.w.agreed (h.w.exec h.k) 5) true ∧ h.w.firstDissent (h.w.exec h.k) [[2], [3], [4]] = none ∧
    s.descriptor h (h.w.agreed (h.w.exec h.k) 2) = some bs ∧ leNat (bs.take 4) = 1 ∧ ((bs.drop 4).take 1).map BitVec.toNat = [2] ∧
    (∀ b ∈ (bs.drop 20).take 4, b = 0) ∧ s.slotQuiet h = true := by
  have d : ((arrayOf grouped).descriptor (slot grouped (wave [])) ((wave []).agreed ((wave []).exec 0) 2)).any (fun bs => decide (leNat (bs.take 4) = 1 ∧
      ((bs.drop 4).take 1).map BitVec.toNat = [2] ∧ (∀ b ∈ (bs.drop 20).take 4, b = 0))) = true := by decide +kernel
  obtain ⟨bs, hbs, hd⟩ := any_of d
  obtain ⟨h1, h2, h3⟩ := of_decide_eq_true hd
  refine ⟨arrayOf grouped, slot grouped (wave []), bs, rfl, rfl, by decide, rfl, by decide +kernel, ?_, by decide +kernel, ?_, by decide +kernel, hbs, h1, h2, h3,
    by decide +kernel⟩
  · unfold Here.Scattered; decide +kernel
  · unfold IllegalFormat; decide +kernel

/-- AFLIP of the last bit of the last element, and of the first place there is none. -/
theorem meets_TestFlipsOneBit : ∃ (s : State) (h : Here), s.here = some h ∧ s.beyond = none ∧ h.g.test = true ∧ (s.core h.g.core).owner = some h.ctx ∧
    h.cov on ≠ 0 ∧ h.w.dissenting (h.cov on) [6] = 0 ∧ (h.w.agreed (h.cov on) 6).toNat = 31 + 32 * 255 + 2 ^ 13 * 98 ∧
    (h.w.agreed (h.cov on) 7).toNat = 2 ^ 13 * 99 ∧ s.deferred = true :=
  ⟨arrayOf (group (wave (uniform [(6, 0xC5FFF), (7, 0xC6000)]))), at_ (uniform [(6, 0xC5FFF), (7, 0xC6000)]), rfl, rfl, rfl, by decide +kernel, by decide +kernel,
    by decide +kernel, by decide +kernel, by decide +kernel, rfl⟩

/-- AFLIP that covers no thread goes on, in a group that does not own the array too; and one in that group that covers some traps. -/
theorem test_aflip_uncovered : goes (.aflip ⟨false, 0⟩ 6 0) (issuing (group (wave []))) = some (0x10008, 0xFFFFFFFF) ∧
    traps (.aflip on 6 0) (issuing (group (wave []))) = some (Cause.engineShape.code, 0, 0xFFFFFFFF) := by decide +kernel

/-- An MMA of rows of zeros at its place in matrix order, and a tile it finds as it wants it. -/
def entry (op : MatOp) : MatEntry := ⟨0, 1, 0, 0, op, 1, .queued, 0, none, 0, 0, [], none⟩
def rows : List (List Byte × Word) := List.replicate 32 (List.replicate 32 3, 0)

theorem meets_ProductsAccumulate : ∃ (s : State) (core : Nat), core < Config.cores ∧ s.voided (entry (.mma 0 0 0 rows 0)) = false ∧ (∃ g, Map.find s.groups 1 = some g ∧ g.image.lanes = 32) ∧
    stationary 0 = (s.core core).active.fmt.toNat ∧ ((s.core core).tiles[(0 : Fin 4)]).anchor = (0 : Word).extractLsb' 6 9 ∧
    ((s.core core).tiles[(0 : Fin 4)]).chk = (0 : Word).getLsbD 16 ∧ ((s.core core).tiles[(0 : Fin 4)]).bad = [] ∧
    ((s.core core).tiles[(0 : Fin 4)]).badAnchor = false ∧ rows.length = 32 ∧ (∀ r ∈ rows, r.1.length = 32) := by
  refine ⟨arrayOf (group (wave [])), 0, ?_, ?_, ⟨_, rfl, rfl⟩, ?_, ?_, ?_, ?_, ?_, ?_, ?_⟩ <;> decide +kernel

/-- R64: an element at its largest stays there when 1 joins it and has overflowed; half a unit below zero truncates to −1 and is inexact. -/
theorem test_accAdd : accAdd 0 ⟨BitVec.ofNat 96 (2 ^ 95 - 1), false, false, false⟩ 1 0 = ⟨BitVec.ofNat 96 (2 ^ 95 - 1), false, true, false⟩ ∧
    accAdd 0 ⟨0, false, false, false⟩ (-1) (-1) = ⟨BitVec.allOnes 96, true, false, false⟩ := by decide +kernel

/-! ## Events -/

/-- The device of the load, in which its wave has been changed. -/
def having (w : Wave) : State := mapped (group w)

/-- Its wave with the wait and the starving clocks of slot 0 changed. -/
def waiting (x : Option Wait) (starved : Nat) : Wave := { wave [] with slots := vmod (wave []).slots 0 (fun p => { p with wait := x, starved := starved }) }

/-- A core issues; slot 0 has starved for 64 clocks; a SLEEP has ended. -/
theorem meets_CoreEventsHappen : ∃ (s t : State) (h k : Here), s.beyond = none ∧ t.beyond = none ∧ s.coreRuns 0 = true ∧ s.slotAt ⟨1, 0, 0⟩ = some h ∧ h.starved = true ∧ s.ready h = true ∧ s.resting h = false ∧ s.behindPair h = false ∧
    (∀ x ∈ s.candidates h.g.core, x.wv % 4 = h.wv % 4 → x.starved = true → x.w.slots[x.k].starved ≤ h.w.slots[h.k].starved) ∧
    t.slotAt ⟨1, 0, 0⟩ = some k ∧ k.w.slots[k.k].wait = some (.sleep 0) :=
  ⟨having (waiting none 64), having (waiting (some (.sleep 0)) 0), slot (group (waiting none 64)) (waiting none 64),
    slot (group (waiting (some (.sleep 0)) 0)) (waiting (some (.sleep 0)) 0), by decide +kernel, by decide +kernel, by decide +kernel, rfl, by decide +kernel,
    by decide +kernel, by decide +kernel, by decide +kernel, by decide +kernel, rfl, rfl⟩

/-- A bin whose time is up, and one that is launching into an ended wave of its role. -/
def bin (launching : Bool) : Bin := ⟨0x10000, 1, 0, [(7, 8, 0)], 1000, launching, 0, 0⟩
def binning (launching : Bool) : State := let s := mapped { group (wave []) with waveSlots := 2, waves := [wave [], { wave [] with ended := true, slots := #v[PathSlot.empty, PathSlot.empty] }] }
  { s with cores := vmod s.cores 0 (fun c => { c with clock := 1, bins := [bin launching] }) }

theorem meets_CoreEventsHappen_bins : ((binning false).core 0).bins[0]? = some (bin false) ∧ (binning false).beyond = none ∧
    (Map.find (binning false).groups 1).map (fun g => decide (g.binInterval ≤ (bin false).timer)) = some true ∧
    ((binning true).core 0).bins[0]? = some (bin true) ∧ ((binning true).binSlot (bin true)).map (fun x => x.1) = some 1 ∧
    (binning true).binAhead 0 (bin true) = false ∧ (Map.find (binning true).groups 1).map (binning true).groupRuns = some true ∧
    (binning true).coreRuns 0 = true ∧ (bin true).since < ((binning true).core 0).clock.toNat ∧
    (Map.find (binning true).groups 1).map (fun g => g.waves.all (fun v => v.halt == .running)) = some true := by
  refine ⟨?_, ?_, ?_, ?_, ?_, ?_, ?_, ?_, ?_, ?_⟩ <;> decide +kernel

/-- The bin's thread has its arguments in v0 and v1. -/
theorem test_bin_launch : ((next (exec (.binLaunch 0 0) (binning true))).bind (fun t => (t.waveOf 1 1).map (fun w => (w.read 0 0, w.read 1 0, w.slots[(0 : Fin 2)].pc, w.spawned)))) =
    some (7, 8, 0x10000, true) := by decide +kernel

/-- A wave in a state of a halt. -/
def halting (x : Halt) : Wave := { wave [] with halt := x }

/-- A halt that arrives, one that has let sixteen words issue, a handler to enter, a core that has been struck, a debug agent, a bump. -/
theorem meets_CoreEventsHappen_halts : (halting .coming).halt = .coming ∧ (halting (.skid 16 0)).halt = .skid 16 0 ∧
    (handled (group (halting (.trapped 5 0)))).halting = false ∧ (handled (group (halting (.trapped 5 0)))).image.handler = some 0x100 ∧
    (group (halting (.debug 0 false))).halting = false ∧ ((group (halting (.debug 0 false))).waves.find? (fun w => w.halt.isDebug)).isSome = true ∧
    (issuing (group (wave []))).devState = .running ∧ 0 < (({ State.reset with cores := vmod State.reset.cores 0 (fun c => { c with stopLeft := 1 }) } : State).core 0).stopLeft ∧
    (mapped (group (wave []))).inSpace 0 ((mapped (group (wave []))).asd 0 0 + 38) 2 = true := by
  refine ⟨rfl, rfl, ?_, rfl, ?_, ?_, rfl, ?_, ?_⟩ <;> decide +kernel

/-- A load by each thread of a word of one page, in flight. -/
def access : MemWord := (at_ []).memWord State.reset on ⟨.load, .global, 4, false, .rlx, .wave, .add, [9], false⟩
  (Vector.ofFn (fun t => BitVec.ofNat 64 (0x40000 + 4 * t.val))) [] 4 [4, 5]

/-- A request that may leave, one that may be performed, and one whose data may be delivered. -/
def asking (m : MemWord) (left performed : Bool) : State := { mapped (group (wave [])) with
  deferred := true
  cores := vmod (mapped (group (wave []))).cores 0 (fun c => { c with clock := 40, reqs := [(0, { m with left := left, performed := performed, issued := 0 })] }) }
def awaits : MemWord := { access with left := true, issued := 0 }

theorem meets_MemoryEventsHappen : (Map.find ((asking access false false).core 0).reqs 0).any (fun m => !m.left &&
      decide (m.issued + Config.strikeWindow ≤ ((asking access false false).core 0).clock.toNat)) = true ∧ (asking access false false).beyond = none :=
  ⟨by decide +kernel, rfl⟩

/-- The load may be performed, and its places are sound. -/
theorem meets_MemoryEventsHappen_arrival : let s := asking access true false
    awaits.InFlight s 0 0 (group (wave [])) (wave []) ∧ s.mayPerform 0 0 (group (wave [])) awaits = true ∧ s.coreUp 0 = true ∧ s.deferred = true ∧
    ∃ s1 ls, s.attempt 0 0 0 awaits awaits.cov (awaits.pages awaits.cov) = (s1, .ready ls) ∧
      ∀ q, Mask.has awaits.cov q = true → ∀ run ∈ awaits.usedRuns q, ∃ p, s1.goes 0 ls awaits q run.1 = some p ∧ s1.sound 0 p run.2 := by
  have hr : isReady ((asking access true false).attempt 0 0 0 awaits awaits.cov (awaits.pages awaits.cov)).2 = true := by decide +kernel
  have hl : placesSound awaits ((asking access true false).attempt 0 0 0 awaits awaits.cov (awaits.pages awaits.cov)).1 0
      (((asking access true false).attempt 0 0 0 awaits awaits.cov (awaits.pages awaits.cov)).1.goes 0
        (leaves ((asking access true false).attempt 0 0 0 awaits awaits.cov (awaits.pages awaits.cov)).2) awaits) = true := by decide +kernel
  exact ⟨⟨by decide +kernel, by decide +kernel, rfl, rfl, by decide +kernel, rfl, ⟨rfl, rfl, rfl, rfl, rfl⟩, by decide +kernel⟩, by decide +kernel,
    by decide +kernel, rfl, _, _, ready_eq hr, places_of hl⟩

/-- Its data may be delivered, and an LD2S's, whose destinations touch. -/
theorem meets_MemoryEventsHappen_delivery : (∃ m w, Map.find ((asking access true true).core 0).reqs 0 = some m ∧ m.performed = true ∧ m.spec.kind = .load ∧
      (asking access true true).waveOf m.ctx m.wave = some w ∧ w.LaysOk ∧ m.badLanes = 0 ∧ m.spec.dests.Nodup ∧ (∀ d ∈ m.spec.dests, d < 256) ∧
      m.spec.size ∈ [1, 2, 4, 8, 16] ∧ m.spec.dests.length = max 1 (m.spec.size / 4) ∧ ∀ q : Lane, m.returns[q].toNat < 256 ^ m.spec.size) ∧
    ∃ m g, Map.find ((asking moveWord true true).core 0).reqs 0 = some m ∧ m.performed = true ∧ m.spec.kind = .ld2s ∧
      Map.find (asking moveWord true true).groups m.ctx = some g ∧ m.badLanes = 0 ∧
      (∀ q : Lane, Mask.has m.cov q = true → m.aux[q].toNat < 2 ^ 30 ∧ m.aux[q].toNat + m.spec.size ≤ g.image.scratch) ∧
      ∀ q r : Lane, Mask.has m.cov q = true → Mask.has m.cov r = true → q ≠ r →
        m.aux[q].toNat + m.spec.size ≤ m.aux[r].toNat ∨ m.aux[r].toNat + m.spec.size ≤ m.aux[q].toNat := by
  refine ⟨⟨_, wave [], by exact (show _ = some { access with left := true, performed := true, issued := 0 } by decide +kernel), rfl, rfl, rfl, wave_laysOk [], rfl,
    by decide, by decide, by decide, by decide, by decide +kernel⟩, _, group (wave []),
    by exact (show _ = some { moveWord with left := true, performed := true, issued := 0 } by decide +kernel), rfl, rfl, rfl, rfl, by decide +kernel, by decide +kernel⟩

/-- A fault record of core 0, in a queue of 16 records that holds none, and in a full one. -/
def faulted (tail : Nat) : State := let s := tables (mapped (group (wave []))) [(24, 0x6000), (32, 1 + 4 * 2 ^ 32), (0x6000, tail * 2 ^ 32)]
  { s with faultRecs := [(5, ⟨0, 0, 0, 0x1230000, 1, none⟩)] }

theorem meets_MemoryEventsHappen_records : (faulted 0).beyond = none ∧ Map.find (faulted 0).faultRecs 5 = some ⟨0, 0, 0, 0x1230000, 1, none⟩ ∧
    (faulted 0).asd 0 0 = 0 ∧ (faulted 0).physNat 0 24 8 = 0x6000 ∧ (faulted 0).physNat 0 36 1 % 16 = 4 ∧ (faulted 0).inSpace 0 0x6004 4 = true ∧
    (faulted 0).inSpace 0 0x6040 32 = true ∧ (faulted 16).physNat 0 0x6004 4 = 16 ∧ (faulted 16).physNat 0 0x6000 4 = 0 := by
  refine ⟨?_, ?_, ?_, ?_, ?_, ?_, ?_, ?_, ?_⟩ <;> decide +kernel

/-- The record stands in its place with its address, and TAIL has passed it; a full queue takes none. -/
theorem test_fault_record : ((next (exec (.faultRecord 0 5) (faulted 0))).map (fun t => (t.physNat 0 0x6058 8, t.physNat 0 0x6004 4))) = some (0x1230000, 1) ∧
    ((next (exec (.faultRecord 0 5) (faulted 16))).map (fun t => t.physNat 0 0x6004 4)) = some 16 := by decide +kernel

/-- A logged word of the load's group whose give-up is due, in a live thread and in one that has exited. -/
def givingUp (no : Mask) (w : Wave) : State := let s := mapped (handled (group w))
  { s with cores := vmod s.cores 0 (fun c => { c with log := [(0, { access with parked := true, gaveUp := some (.permission, no, 0x40000) })] }) }

theorem meets_MemoryEventsHappen_givesUp : let s := givingUp 1 (wave [])
    (Map.find (s.core 0).log 0).map (fun m => (m.gaveUp, m.ctx, m.wave)) = some (some (.permission, 1, 0x40000), 1, 0) ∧ (1 : Mask) &&& (wave []).alive = 1 ∧
    (wave []).ended = false ∧ (wave []).halt = .running ∧ (handled (group (wave []))).image.handler ≠ none ∧
    1 &&& ({ wave [] with exited := 1 } : Wave).alive = 0 ∧ s.awaited 0 0 = 0 := by
  refine ⟨?_, ?_, ?_, ?_, ?_, ?_, ?_⟩ <;> decide +kernel

/-- The trap of a give-up names the word and its offending threads. -/
theorem test_give_up : ((next (exec (.parkedWordGiveUp 0 0) (givingUp 1 (wave [])))).bind (fun t => t.waveOf 1 0)).map (fun w =>
    (w.frame.cause.toNat, w.frame.pc.toNat, w.faultMask.toNat)) = some (Cause.permission.code, 0x10000, 1) := by decide +kernel

/-! ## The window -/

/-- Registers whose pair 4 holds an address of the window in every thread. -/
def windowed (a : Nat) (more : List (Nat × Word)) : List (Nat × (Lane → Word)) := uniform ([(4, BitVec.ofNat 32 a), (5, BitVec.ofNat 32 (a / 2 ^ 32))] ++ more)

/-- Whether a load of a word from an address of the window goes to a place that is free, and what it finds there. -/
def windowLoad (a : Nat) (s : State) (g : Guard) : Option (Bool × Bool × Option (Option Byte)) :=
  let h := slot (group (wave (windowed a [(8, 7)]))) (wave (windowed a [(8, 7)]))
  (accessOf s h (.ld g 9 4 (mem .w .window) 0)).map (fun m =>
    (m.cov == 0, m.misaligned == 0 && !s.heldBack h m && decide (m.spec.space = .window ∧ m.spec.kind = .load), (winAt m.addrs[(0 : Lane)]).map (fun x =>
      if x.sizeOk m.spec.size && (s.part 0).hasCluster x.cluster && !s.winBusy x then s.windowByte x 0 else none)))
def window (a : Nat) : State := mapped (group (wave (windowed a [(8, 7)])))

/-- A register of the wave itself, one of no cluster of the partition, one that names no place; with no covered thread; without privilege. -/
theorem meets_WindowWordsAct : Issues (window 0xF000000000400) (slot (group (wave (windowed 0xF000000000400 [(8, 7)]))) (wave (windowed 0xF000000000400 [(8, 7)]))) ∧
    (group (wave (windowed 0xF000000000400 [(8, 7)]))).priv = true ∧ plain.priv = false ∧
    (Instr.ld on 9 4 (mem .w .window) 0).wf = true ∧ windowLoad 0xF000000000400 (window 0xF000000000400) on = some (false, true, some (some 7)) ∧
    (windowLoad 0xF000000000400 (window 0xF000000000400) ⟨false, 0⟩).map Prod.fst = some true ∧
    ((window 0).part 0).hasCluster (clusterOf 191) = false ∧ winAt 0xF000000000000 = some (.reg 0 0 0 0) ∧ winAt 0xEFFFFFFFFFFFF = none ∧
    winAt 0xF00000012C200 = none ∧ (window 0).history = [] := by
  refine ⟨issues_wave _ rfl rfl, ?_, ?_, ?_, ?_, ?_, ?_, ?_, ?_, ?_, ?_⟩ <;> decide +kernel

/-- LD of a register of the wave reads its element; ST to it changes what a thread reads; trit codes 2 are stored as 0. -/
theorem test_window : reads (.ld on 9 4 (mem .w .window) 0) (window 0xF000000000400) 9 3 = some 7 ∧
    reads (.st ⟨false, 7⟩ 4 4 (mem .w .window) 0) (window 0xF000000000400) 8 0 = some 0x400 ∧
    traps (.ld on 9 4 (mem .w .window) 0) (mapped { plain with waves := [wave (windowed 0xF000000000400 [])] }) =
      some (Cause.privilege.code, 0, 0xFFFFFFFF) := by decide +kernel

/-! ## Engines -/

/-- A copy with its grant, and a matrix order whose first entry may begin. -/
def copyOf : CopyCmd := ⟨0, 1, 0, 2, none, .lin 0x100 0 true true 16, 0, 0, none, 0, 0, []⟩
def working (e : MatEntry) : State := let s := arrayOf (group (wave []))
  { s with cores := vmod s.cores 0 (fun c => { c with clock := 40, copies := [copyOf], queue := [e] }),
           clusters := vmod s.clusters 0 (fun k => { k with granted := [⟨.copy, 0, 0, 64, 0, 0⟩] }) }

/-- The engines' memory. -/
def imaging (e : MatEntry) : State := { mapped (group (wave [])) with deferred := true, cores := (working e).cores, clusters := (working e).clusters }

theorem meets_EngineEventsHappen : let s := working (entry (.aclr 0 2))
    (s.core 0).copies.find? (fun x => x.id == copyOf.id) = some copyOf ∧ s.coreUp 0 = true ∧ s.leads 0 copyOf = true ∧ s.hasGrant .copy 0 copyOf.id = true ∧
    s.aged 0 copyOf.issued = true ∧ s.copyMoves 0 copyOf = true ∧ s.deferred = true ∧ s.remote = [] ∧ (group (wave [])).badScratch = [] ∧
    s.nextEntry 0 = some (entry (.aclr 0 2)) ∧ (s.hasGrant .matrix 0 0 = false ∧ s.hasAsked .matrix 0 0 = false) := by
  refine ⟨?_, ?_, ?_, ?_, ?_, ?_, ?_, ?_, ?_, ?_, ?_⟩ <;> decide +kernel

/-- Occupancy of an entry that takes effect. -/
def taken (x : State × Taken) : Option Nat := match x.2 with
  | .done n => some n
  | .blocked => none
  | .waits _ => none
  | .asks => none

/-- An ACLR and an AFLIP take no time, an MMA does; so does a group of an MMAG whose image stands in the shadow plane. -/
def groupOf (ahead : Option Nat) : MatEntry := { entry (.mmag 0 0 0 0 0 0 0 [2] [0x40000] 0) with ahead := ahead }

theorem meets_EngineEventsHappen_order : taken ((working (entry (.aclr 0 2))).takeEffect 0 (entry (.aclr 0 2))) = some 0 ∧
    taken ((working (entry (.aflip 1 5 9 20))).takeEffect 0 (entry (.aflip 1 5 9 20))) = some 0 ∧ (working (entry (.aflip 1 5 9 20))).voided (entry (.aflip 1 5 9 20)) = false ∧
    ((taken ((working (entry (.mma 0 0 0 rows 0))).takeEffect 0 (entry (.mma 0 0 0 rows 0)))).any (fun n => decide (0 < n))) = true ∧
    (working (groupOf (some 0))).mmagUnfit 0 0 0 [2] 0 = false ∧ (working (groupOf (some 0))).voided (groupOf (some 0)) = false ∧ nextGroup [2] 0 = some 0 ∧
    ((taken ((working (groupOf (some 0))).mmagStep 0 (groupOf (some 0)))).any (fun n => decide (0 < n))) = true ∧
    (working (groupOf (some 0))).nextEntry 0 = some (groupOf (some 0)) := by
  refine ⟨?_, ?_, ?_, ?_, ?_, ?_, ?_, ?_, ?_⟩ <;> decide +kernel

/-- An image that may be read: rows and columns 16 at 0x40000. -/
def tiled : MatEntry := entry (.tld 0 false 16 16 0x40000 16 0)
def isPlane (x : State × ImageRead) : Bool := x.1.beyond.isNone && (match x.2 with
  | .plane _ => true
  | .stop _ => false)

theorem meets_EngineEventsHappen_image : ((working tiled).core 0).queue.find? (fun e => e.op.usesShadow) = some tiled ∧ (working tiled).coreUp 0 = true ∧
    (working tiled).arrayUp 0 = true ∧ (working tiled).halts 1 = false ∧ (working tiled).voided tiled = false ∧
    isPlane ((imaging tiled).readPlane ⟨0, 1, group (wave []), 0⟩ [] ⟨0, false, 16, 16, 0x40000, 16, 0⟩) = true ∧
    (working (groupOf none)).readsImage 0 (groupOf none) = true := by
  refine ⟨?_, ?_, ?_, ?_, ?_, ?_, ?_⟩ <;> decide +kernel

/-- A drain buffer of a record that names one element of 4 bytes at 0x40000, before its chunk is asked for, under its reservation, and when it is done. -/
def buffer (done : Nat) : DrainBuf := ⟨1, 0, 1, 7, Tile.zero, [], [], BitVec.ofNat 512 (0x40000 + 2 ^ 64), false, done, 0, none, 0, 0⟩
def draining (done : Nat) (granted : Bool) : State := let s := mapped (group (wave []))
  { s with deferred := true
           cores := vmod s.cores 0 (fun c => { c with clock := 40, buffers := vmod c.buffers 0 (fun _ => some (buffer done)) }),
           clusters := vmod s.clusters 0 (fun k => { k with granted := if granted then [⟨.drain, 0, 7, 64, 0, 0⟩] else [] }) }

theorem meets_EngineEventsHappen_drain : ((draining 0 true).core 0).copies = [] ∧ ((draining 0 true).core 0).drainOf 7 = some (0, buffer 0) ∧
    (draining 0 true).coreUp 0 = true ∧ (draining 0 true).aged 0 0 = true ∧ (draining 0 true).drainMoves (buffer 0) = true ∧ (buffer 0).midChunk = false ∧
    (draining 0 true).hasGrant .drain 0 7 = true ∧ (draining 0 false).hasGrant .drain 0 7 = false ∧
    (boxAt (buffer 0).shape (buffer 0).coords 0).1 = some 0x40000 ∧
    (match (draining 0 true).spotsAt ⟨0, 1, group (wave []), 0⟩ .engineWrite (.mem 0x40000) (drainBytes (shapeFmt (buffer 0).shape)) 8 with
      | (_, .ok [(.dev _ _, n)]) => n == drainBytes (shapeFmt (buffer 0).shape)
      | _ => false) = true ∧ (draining (buffer 0).total false).drainDone 0 0 = true := by
  refine ⟨?_, ?_, ?_, ?_, ?_, ?_, ?_, ?_, ?_, ?_, ?_⟩ <;> decide +kernel

/-- The bucket of `bucket` once its COLL has issued; its READYA is 0 and so is READY. -/
def braided : Option State := (next (exec (.coll on 2 3) bucket)).map (fun t => { t with cores := vmod t.cores 0 (fun c => { c with clock := 4000 }) })

theorem meets_EngineEventsHappen_braid : (braided.any (fun t => t.colls.any (fun x => t.braidMoves x.1 x.2 && !x.2.started && !x.2.ready &&
      (Map.find t.groups x.2.ctx).any (fun g => match t.engineRead (x.2.engine g) x.2.got (.mem (x.2.record.extractLsb' 256 64)) 4 with
        | (s1, .ok bs) => s1.beyond.isNone && s1.deferred && bs.length == 4
        | _ => false)))) = true := by decide +kernel

/-- An entry whose occupancy has begun, one that has been occupied, and a batch that may retire. -/
theorem meets_EngineEventsHappen_ends : let e := { entry (.aclr 0 2) with phase := .begun }
    let f := { entry (.aclr 0 2) with phase := .occupied }
    ((working e).core 0).queue.find? (fun e => e.phase == .begun) = some e ∧ ((working f).core 0).queue = f :: [] ∧ f.phase = .occupied ∧ (working f).deferred = true ∧
    (arrayOf (group (wave []))).mayRetire 1 (group (wave [])) 0 { wave [] with batch := 1 } = true := by
  refine ⟨?_, ?_, ?_, ?_, ?_⟩ <;> decide +kernel

/-- A request within the limit, and the largest within it. -/
def powered (charge : Nat) : Cluster := { Cluster.reset with waiting := [⟨.copy, 0, 0, charge, 0, 0⟩], charges := [(0, 0x4000)] }

theorem meets_ClusterEventsHappen : firstRequest 0 (powered 0x4000).waiting = some ⟨.copy, 0, 0, 0x4000, 0, 0⟩ ∧
    (((powered 0x4000).charges.filter (fun x => decide (0 < x.1 + 1024))).map Prod.snd).sum + 0x4000 ≤ (powered 0x4000).pwrlim.toNat ∧
    (powered 0).waiting.find? (fun r => decide (r.up < r.cls.rank)) = some ⟨.copy, 0, 0, 0, 0, 0⟩ ∧ Cluster.reset.fieldTest = .none ∧
    Cluster.reset.lastTest + Cluster.reset.testint.toNat * 3600000000000 = 21600000000000 ∧ Cluster.reset.hot = false ∧
    ({ Cluster.reset with sagging := true } : Cluster).sagging = true ∧ 4 < (State.reset.core 0).ratio.toNat ∧
    (group (wave [])).mayPause = true ∧ (FieldTest.run true 0).stops = true := by
  refine ⟨?_, ?_, ?_, ?_, ?_, ?_, ?_, ?_, ?_, ?_⟩ <;> decide +kernel

/-- The load's partition, whose TDI is unlocked: no node at address 0, an active address space, memory that the host may reach. -/
theorem meets_HostWritesHappen : let s := mapped (group (wave []))
    s.beyond = none ∧ (s.part 0).tdi = .unlocked ∧ (s.part 0).pstat = 0 ∧ s.path 0 0x1000 = none ∧ s.asidActive 0 0 = true ∧
    s.inSpace 0 0x3000 8 = true ∧ s.inSpace 0 (s.part 0).space 1 = false ∧ (tables s [(0x800, 2 ^ 8)]).beyond = none := by
  refine ⟨?_, ?_, ?_, ?_, ?_, ?_, ?_, ?_⟩ <;> decide +kernel

/-- A record that the service has resolved, of no word in the log. -/
theorem meets_HostWritesHappen_reply : let s : State := { tables (faulted 1) [(0x6040, 1)] with deferred := true, faultRecs := [(5, ⟨0, 0, 0, 0x1230000, 1, some 0⟩)] }
    (Map.find s.faultRecs 5).any (fun r => decide (r.index = some 0 ∧ r.part = 0) && s.recordStatus r 0 == 1) = true ∧ (s.part 0).pstat ≠ 1 ∧
    (s.core 0).log = [] ∧ s.remote = [] := by
  refine ⟨?_, ?_, ?_, ?_⟩ <;> decide +kernel

/-- A node of the partition's tree: its root. -/
theorem meets_HostWritesHappen_node : (((mapped (group (wave []))).modPart 0 (fun p => { p with root := 0x8000 })).path 0 0x8000).isSome = true := by decide +kernel

/-- A partition that runs and has work, and the load's group at its several ends. -/
theorem meets_DistributorEventsHappen : let s := mapped (group (wave []))
    (s.modPart 0 (fun p => { p with idle := false })).partRuns 0 = true ∧ (∀ x ∈ s.gangs, x.2.ready = true) ∧
    s.mayAck 1 (group (wave [])) .waves = true ∧ s.coreUp 0 = true ∧ s.quiet 1 (group { wave [] with ended := true }) = true ∧
    s.atEnd 0 { launch with ended := 1 } = true ∧ launch.prio + launch.aged < 15 ∧ { launch with placed := 0 }.placed < launch.total := by
  refine ⟨?_, ?_, ?_, ?_, ?_, ?_, ?_, ?_⟩ <;> decide +kernel

/-- A gang of one stopped group, a hold whose budget is spent, and a context that ended a second ago. -/
theorem meets_DistributorEventsHappen_stops : loadGang.members ≠ [] ∧ loadGang.members.Nodup ∧
    ({ group (wave []) with stop := some ⟨false, [.waves, .matrix, .copy, .braid, .bins, .barriers], 0, some (0, 0)⟩ } : Group).stopped = true ∧
    Map.find [((1 : Nat), (0 : Nat))] 1 = some 0 ∧ (0 : Nat) + 1000 * (group (wave [])).budget ≤ 100000 := by
  refine ⟨?_, ?_, ?_, ?_, ?_⟩ <;> decide +kernel

/-- A requester pair, frames, a request of it, and a device whose port knows the pair and one entry. -/
def peer : PairId := ⟨7, 3, 9⟩
def frame (counter : Nat) : Seal := ⟨0, counter, 0, true⟩
def request (epoch : Word) (serial : Option Word) : FabricReq := ⟨0, peer, serial, 5, epoch, 0x1000, .atomic .add false 1, frame 8⟩
def known : Port := { Port.reset with pairs := [⟨peer, 5, 0, none⟩], cleat := [⟨6, peer, 1, 0, 3, 0, false⟩] }
def linked : State := { mapped (group (wave [])) with
  epoch := 1
  ports := vmod State.reset.ports 0 (fun _ => known)
  linkKeys := [⟨some 0, 4, false, 0, 0, [7], 0⟩]
  remote := [(2, ⟨1, 0, 0, 0, 0, 0, 0, 0, none, none, some 1, 4, 0, 0, .load 4, 1, 0, 0, 1, 100000, .waiting, 0, some 0⟩)]
  sprays := [(1, (.query 0 peer (frame 0), 0))]
  now := 100000 }

/-- A wrong epoch, a serial the owner has, one at its floor's edge below and at the floor, a late frame, an operation to send again. -/
theorem meets_FabricEventsHappen : linked.beyond = none ∧ linked.devState = .running ∧ linked.entryFor (request 2 none) = none ∧ (2 : Word) ≠ linked.epoch ∧
    (request 1 (some 6)).epoch = linked.epoch ∧ ((linked.modPort 0 (fun p => p.hear peer 5 100000)).port 0).entryOf peer 6 = some ⟨6, peer, 1, 0, 3, 0, false⟩ ∧
    ((linked.modPort 0 (fun p => p.hear peer 5 100000)).port 0).entryOf peer 4 = none ∧ precedes 4 5 = true ∧ precedes 5 5 = false ∧
    linked.now ≤ (frame 0).sentAt + 10000000 ∧ ({ linked with now := 10000001 } : State).now = (frame 0).sentAt + 10000001 ∧
    (linked.linkKey (some 0) 4 false).isSome = true ∧ (Map.find linked.remote 2).any (fun o => o.status == .waiting && linked.opActs o &&
      decide (o.lastSent + o.interval ≤ linked.now ∧ linked.now < o.firstSent + 1000000000)) = true ∧
    (Map.find linked.sprays 1).map Prod.snd = some 0 ∧ (linked.port 0).rate = 224 ∧ ((linked.port 0).lanes[(3 : Nat)]?).any (fun l => !l.retired) = true := by
  refine ⟨?_, ?_, ?_, ?_, ?_, ?_, ?_, ?_, ?_, ?_, ?_, ?_, ?_, ?_, ?_, ?_⟩ <;> decide +kernel

/-- The same device as its partition knows the requester, whose frames are sealed under its key. -/
def admitted : State := linked.modPart 0 (fun p => { p with peers := [(4, BitVec.ofNat 64 (0xF * 2 ^ 60 + 2 ^ 54 + 3 * 2 ^ 44 + 7 * 2 ^ 32))] })

theorem meets_FabricEventsHappen_admitted : let e : BitVec 64 := BitVec.ofNat 64 (0xF * 2 ^ 60 + 2 ^ 54 + 3 * 2 ^ 44 + 7 * 2 ^ 32)
    admitted.entryFor (request 1 (some 8)) = some (4, e) ∧ admitted.linkKey (some 0) 4 false = some ⟨some 0, 4, false, 0, 0, [7], 0⟩ ∧
    (7 : Nat) ∈ [7] ∧ (frame 8).counter ∉ [7] ∧ ((admitted.port 0).entryOf peer 8) = none ∧ (admitted.port 0).cleat.length < Config.cleatEntries ∧
    admitted.inSpace 0 0x1000 4 = true ∧ e.getLsbD 60 = true ∧ e.getLsbD 61 = true ∧ e.getLsbD 62 = true ∧
    (admitted.part 0).ownsKey (e.extractLsb' 54 6).toNat = true ∧ (admitted.part 0).pstat ≠ 1 ∧
    (∀ i < 4, admitted.clean 0 ((admitted.part 0).place 0 0x1000 + i) (e.extractLsb' 54 6).toNat = true) := by
  refine ⟨?_, ?_, ?_, ?_, ?_, ?_, ?_, ?_, ?_, ?_, ?_, ?_, ?_⟩ <;> decide +kernel

/-- An admitted addition is performed, and again under its serial it is not; a counter already accepted discards its frame. -/
theorem test_admitted : let req : FabricReq := request 1 (some 8)
    let read (s : State) : Nat := s.physNat 0 0x1000 4
    let once := next (exec (.fabricRequest 0 req) admitted)
    once.map read = some (read admitted + 1) ∧
    (once.bind (fun t => next (exec (.fabricRequest 0 { req with frame := frame 9 }) t))).map (fun t => (read t, (t.port 0).cleat.length)) =
      some (read admitted + 1, 2) ∧
    (next (exec (.fabricRequest 0 { req with frame := frame 7 }) admitted)).map (fun t => (read t, t.linkKeys.map LinkKey.discarded)) =
      some (read admitted, [1]) := by decide +kernel

/-- A request of the load's group, on a window whose frames are not sealed. -/
theorem meets_FabricEventsHappen_reply : ∃ o, Map.find linked.remote 2 = some o ∧ linked.opPart o = some 0 ∧ o.ctx = 1 ∧ o.status = .waiting ∧
    ({ linked with linkKeys := [] } : State).linkKey (some 0) o.window false = none ∧ o.cover = none ∧ (∀ x ∈ linked.remote, x.2.status ≠ .queued) ∧
    Map.find (linked.core o.core).reqs o.word = none :=
  ⟨_, rfl, by decide +kernel, rfl, rfl, by decide +kernel, rfl, by decide +kernel, by decide +kernel⟩

/-- What the owner answers to a wrong epoch, to a serial it has, and to one below its floor: a status in five slices, data by its port. -/
theorem test_fabric_answers : let answers (req : FabricReq) : Option (List (Option (FabricAnswer × Nat))) := (next (exec (.fabricRequest 0 req) linked)).map (fun t =>
      t.sent.map (fun x => match x with
        | .slice i (.reply _ _ _ a _ _) => some (a, i)
        | .reply _ _ _ a _ _ => some (a, 9)
        | _ => none))
    answers (request 2 (some 6)) = some [some (.epoch, 4), some (.epoch, 3), some (.epoch, 2), some (.epoch, 1), some (.epoch, 0)] ∧
    answers (request 1 (some 6)) = some [some (.done 3 false, 9)] ∧
    (answers (request 1 (some 4))).map (fun l => l.length) = some 5 := by decide +kernel

/-- A port that retrains, at its lowest and its highest rate; pieces of a spray that are missing. -/
theorem meets_FabricEventsHappen_links : ({ Port.reset with retraining := some 0 } : Port).retraining ≠ none ∧ 112 < Port.reset.rate ∧
    ({ Port.reset with passed := true, rate := 168 } : Port).rate < 224 ∧ Port.reset.up = true ∧ Port.reset.retraining = none ∧
    (List.range 5).countP (fun i => [1, 4].contains i) = 2 ∧ (List.range 5).countP (fun i => [1].contains i) = 1 ∧ 0 + 20000 ≤ linked.now := by decide +kernel

/-- A partition whose TDI has come to an SPDM state, with one session. -/
def spoken (x : Spdm) (finished : Bool) (tdi : Tdi) (pstat : BitVec 4) : State :=
  (issuing (group (wave []))).modPart 3 (fun p => { p with spdm := x, sessions := [(0, ⟨2, finished, 0, 0⟩)], tdi := tdi, pstat := pstat })

theorem meets_SecurityEventsHappen : (Map.find ((spoken .algorithms true .locked 0).part 3).sessions 0).any (fun x => x.finished) = true ∧
    (Map.find ((spoken .start false .unlocked 0).part 3).sessions 0).any (fun x => !x.finished) = true ∧ Map.find ((spoken .start false .unlocked 0).part 3).sessions 1 = none ∧
    ((spoken .start true .run 1).part 3).pstat = 1 ∧ ((spoken .start true .run 0).startReset 3).beyond = none ∧ ((spoken .start true .error 3).part 3).tdi = .error ∧
    (spoken .start true .unlocked 2).configFree 3 ⟨6, 4, 2, 4, 2, 0, false, false, 0, [], []⟩ = true ∧
    ((spoken .start true .unlocked 2).part 3).clusters ≠ 6 ∧ ((spoken .start true .locked 0).part 3).tdi ≠ .unlocked := by
  refine ⟨?_, ?_, ?_, ?_, ?_, ?_, ?_, ?_, ?_⟩ <;> decide +kernel

/-- The device's own responder, its firmware that runs and that does not, and a TDI in ERROR that STOP_INTERFACE has asked to leave it. -/
theorem meets_SecurityEventsHappen_device : let s : State := { regs [] with spdm := .algorithms, sessions := [(0, ⟨2, true, 0, 0⟩)] }
    s.spdmOf .device = .algorithms ∧ (Map.find (s.sessionsOf .device) 0).any (fun x => x.finished) = true ∧ s.devState = .running ∧ s.beyond = none ∧
    State.reset.devState ≠ .running ∧ State.reset.devState ≠ .fatal ∧ s.launches = [] ∧
    ((spoken .algorithms true .error 1).modPart 3 (fun p => { p with stopAsked := true }) |>.part 3).pstat = 1 := by
  refine ⟨?_, ?_, ?_, ?_, ?_, ?_, ?_, ?_⟩ <;> decide +kernel

/-- STOP_INTERFACE takes a TDI out of ERROR once the reset has ended; without it the TDI stays there. -/
theorem test_leave_error : let ends (s : State) := (next (exec (.partitionResetEnd 3) s)).map (fun t => ((t.part 3).tdi, (t.part 3).pstat.toNat))
    (next (exec (.stopInterface 3 0) (spoken .algorithms true .error 3))).bind ends = some (.unlocked, 2) ∧
    ends (spoken .algorithms true .error 1) = some (.error, 3) := by decide +kernel

/-- A locked TDI starts; a version out of turn is an error. -/
theorem test_tdi_start : ((next (exec (.tdiStart 3 0) (spoken .algorithms true .locked 0))).map (fun t => (t.part 3).tdi)) = some .run ∧
    (next (exec (.getDigests (.tdi 3)) (spoken .capabilities true .locked 0))).map (fun t => t.sent) = some [.spdm (.tdi 3) 0 []] := by decide +kernel

/-- A unit of a core, and one of each class's last index. -/
theorem meets_DeviceEventsHappen : unitKnown (unitNorm ⟨191, 0, 31⟩) = true ∧ unitKnown (unitNorm ⟨0, 3, 127⟩) = true ∧ unitKnown ⟨0, 3, 48⟩ = false ∧
    ({ State.reset with tests := [⟨unitNorm ⟨0, 0, 0⟩, none⟩] } : State).underTest ⟨0, 0, 0⟩ = true ∧
    (({ State.reset with cores := vmod State.reset.cores 0 (fun c => { c with bankFaults := [31], rowFaults := [9], spares := 7 }) } : State).core 0).bankFaults = [31] ∧
    (regs []).devState = .running ∧ (State.reset.fatal .temperature).beyond = none ∧ (FwImage.mk .cluster 1 true 31).signed = true ∧
    imagePlaced ⟨.cluster, 1, true, 31⟩ = true ∧ imagePlaced ⟨.cluster, 1, true, 32⟩ = false ∧ State.reset.clusterBusy 0 = false ∧
    State.reset.running_ .ecinzel 0 = true ∧ ({ State.reset with versions := #v[1, 0, 0] } : State).running_ .ecinzel 1 = true := by
  refine ⟨?_, ?_, ?_, ?_, ?_, ?_, ?_, ?_, ?_, ?_, ?_, ?_, ?_⟩ <;> decide +kernel

/-- A boot raises EPOCH and skips a bundle below the floors; a committed version is the floor. -/
theorem test_boot : let s : State := { State.reset with floors := #v[1, 0, 0] }
    ((next (exec (.coldReset true [⟨true, 0, 0, 0⟩, ⟨false, 1, 0, 0⟩, ⟨true, 1, 0, 0⟩]) s)).map (fun t => (t.epoch, t.devState))) = some (1, .running) ∧
    ((next (exec (.coldReset true [⟨true, 0, 0, 0⟩]) s)).map (fun t => t.devState)) = some .recovery := by decide +kernel

end Sys2Proof.Tests
end

section
/-! SUPPORT. RELAY and LAYWR (R137, R139): what each leaves of its wave. -/

namespace Sys2Proof.Machine

/-! ## Words that change their own wave -/

/-- A word that changes its own wave alone raises no event: it retires where its change of the wave settles (R27, R34). -/
theorem State.waveWord_settled {s : State} {h : Here} (hi : Issues s h) (f : Here → Wave) (hs : h.w.Settled (f h))
    (hd : (f h).deadsrc = h.w.deadsrc) (cov : Nat → Mask) (dests : List Nat) :
    ∃ t, s.waveWord f = .next t ∧ Retires s t h cov dests false 0 (f h) := by
  refine ⟨s.putWave h ((f h).advance h.k), by unfold State.waveWord; rw [hi.here],
    ⟨?_, hs.same, by rw [hd, Bool.or_false], fun q _ => hs.read q, fun d _ t ht _ => hs.read d t ht⟩⟩
  simp [State.putWave, Group.setWave]

/-- A word whose check finds a trap takes it. -/
theorem State.word_error {s : State} {h : Here} (hh : s.here = some h) {f : Here → Except Trap State} {t : Trap}
    (hf : f h = .error t) : s.word f = .next (s.takeTrap h t) := by
  unfold State.word; rw [hh]; simp [hf, State.orTrap]

/-- A word whose check finds none leaves the state it computes. -/
theorem State.word_ok {s s' : State} {h : Here} (hh : s.here = some h) {f : Here → Except Trap State} (hf : f h = .ok s') :
    s.word f = .next s' := by
  unfold State.word; rw [hh]; simp [hf, State.orTrap]

/-! ## RELAY -/

theorem exec_relay_eq (g : Guard) (vd : Reg) (s : State) : exec (.relay g vd) s = s.waveWord (fun h => h.w.materialise vd.toNat) := rfl

/-! ## LAYWR -/

theorem exec_laywr_eq (g : Guard) (vd va : Reg) (s : State) : exec (.laywr g vd va) s = execLaywr g vd va s := rfl

theorem laneOf_val (t : Lane) : laneOf t.val = t := Fin.ext (Nat.mod_eq_of_lt t.isLt)

/-- Bit 31 of a value, the one that names VOID (R139). -/
theorem Word.bit31_eq (x : Word) : x.getLsbD 31 = decide (2 ^ 31 ≤ x.toNat) := x.msb_eq_decide

/-- The threads LAYWR traps for are the covered ones whose value is from 32 up and has not bit 31. -/
theorem laywrBad_eq_wordBits (w : Wave) (cov : Mask) (va : Reg) :
    laywrBad w cov va = wordBits (fun n => Mask.has cov (laneOf n) &&
      decide (32 ≤ (w.read va.toNat (laneOf n)).toNat ∧ (w.read va.toNat (laneOf n)).toNat < 2 ^ 31)) := by
  refine congrArg BitVec.ofFnLE (funext fun t => ?_)
  dsimp only
  rw [laneOf_val, Word.bit31_eq, Bool.and_assoc, ← decide_not, ← Bool.decide_and]
  exact congrArg (Mask.has cov t && ·) (decide_eq_decide.mpr (by omega))

/-- The entries LAYWR gives a register (R139). -/
def Wave.laywrEntries (w : Wave) (cov : Mask) (vd va : Reg) : LocMap := Vector.ofFn (fun t =>
  if Mask.has cov t then
    (if (w.read va.toNat t).getLsbD 31 then none else some (laneOf (w.read va.toNat t).toNat))
  else (w.reg vd.toNat).loc[t])

theorem Wave.getElem_laywrEntries (w : Wave) (cov : Mask) (vd va : Reg) (t : Lane) :
    (w.laywrEntries cov vd va)[t] =
      if Mask.has cov t then (if 2 ^ 31 ≤ (w.read va.toNat t).toNat then none else some (laneOf (w.read va.toNat t).toNat))
      else (w.reg vd.toNat).loc[t] := by
  simp only [Wave.laywrEntries, Fin.getElem_fin, Vector.getElem_ofFn, Word.bit31_eq, decide_eq_true_eq]

/-- The wave that a LAYWR of valid entries leaves; one that covers no thread changes nothing (R16, R139). -/
def Wave.laywr (w : Wave) (cov : Mask) (vd va : Reg) : Wave :=
  if cov = 0 then w
  else w.setReg vd.toNat { w.reg vd.toNat with loc := w.laywrEntries cov vd va, tag := .none }

theorem execLaywr_of_bad {s : State} {h : Here} (hh : s.here = some h) (g : Guard) (vd va : Reg)
    (hb : laywrBad h.w (h.cov g) va ≠ 0) :
    execLaywr g vd va s = .next (s.takeTrap h (Trap.named h.w .illegalOpcode (laywrBad h.w (h.cov g) va) va.toNat 0)) :=
  State.word_error hh (if_pos hb)

theorem execLaywr_of_good {s : State} {h : Here} (hh : s.here = some h) (g : Guard) (vd va : Reg)
    (hb : laywrBad h.w (h.cov g) va = 0) :
    execLaywr g vd va s = .next (s.putWave h ((h.w.laywr (h.cov g) vd va).advance h.k)) := by
  refine State.word_ok hh ((if_neg (not_not_intro hb)).trans ?_)
  unfold Wave.laywr
  split <;> rfl

/-- Of the wave, LAYWR changes registers alone. -/
theorem Wave.laywr_rest (w : Wave) (cov : Mask) (vd va : Reg) :
    w.laywr cov vd va = { w with regs := (w.laywr cov vd va).regs } := by
  unfold Wave.laywr; split <;> rfl

theorem Wave.reg_laywr_other (w : Wave) (cov : Mask) (vd va : Reg) (r : Nat) (hr : r ≠ vd.toNat) :
    (w.laywr cov vd va).reg r = w.reg r := by
  unfold Wave.laywr
  split
  · rfl
  · rw [Wave.reg_setReg, if_neg (fun e => hr e.1)]

/-- LAYWR writes entries, and the tag where it covers a thread: base, elements and borrowers stay (R139). -/
theorem Wave.reg_laywr_same (w : Wave) (cov : Mask) (vd va : Reg) :
    (w.laywr cov vd va).reg vd.toNat =
      { w.reg vd.toNat with
        loc := w.laywrEntries cov vd va
        tag := if cov = 0 then (w.reg vd.toNat).tag else .none } := by
  unfold Wave.laywr
  split
  · next hc =>
    have kept : w.laywrEntries cov vd va = (w.reg vd.toNat).loc := by
      refine Vector.ext fun i hi => ?_
      have ht := w.getElem_laywrEntries cov vd va ⟨i, hi⟩
      rwa [hc, Mask.has_zero, ← hc] at ht
    rw [kept]
  · rw [Wave.reg_setReg, if_pos ⟨rfl, vd.isLt⟩]

/-- Settles O11: RELAY is a materialisation, which leaves every live thread's values, and LAYWR's check and entries are those of R139. -/
theorem layWordsSetLays : Obligations.LayWordsSetLays := by
  refine ⟨fun s h g vd hi => ?_, fun s h g vd va hh => ?_⟩
  · obtain ⟨settled, identity, -⟩ := h.w.materialise_spec hi.lays.borrows hi.lays.placed vd.toNat vd.isLt
    obtain ⟨t, next, retires⟩ := State.waveWord_settled hi (fun h => h.w.materialise vd.toNat) settled
      (h.w.materialise_deadsrc vd.toNat) (fun _ => 0) [vd.toNat]
    exact ⟨t, _, (exec_relay_eq g vd s).trans next, retires, identity, settled.tag⟩
  · dsimp only
    rw [← laywrBad_eq_wordBits, exec_laywr_eq]
    refine ⟨fun bad => execLaywr_of_bad hh g vd va bad, fun good => ⟨_, h.w.laywr (h.cov g) vd va,
      execLaywr_of_good hh g vd va good, rfl, h.w.laywr_rest _ vd va, h.w.reg_laywr_other _ vd va, ?_⟩⟩
    rw [Wave.reg_laywr_same]
    exact ⟨rfl, rfl, rfl, h.w.getElem_laywrEntries _ vd va⟩

end Sys2Proof.Machine
end

section
/-! SUPPORT. LSUPD (R230): FP32 patterns against the values they stand for, the three cases of the group's step, and what a word that
writes lanes leaves of its wave. -/

namespace Sys2Proof.Machine

/-! ## Positive normal FP32 patterns (R46) -/

/-- The pattern of a positive finite normal FP32, which R230 takes as a loss scale. -/
def NormalScale (x : Nat) : Prop := 0x00800000 ≤ x ∧ x < 0x7F800000

/-- The value of an FP32 pattern, with the numbers of its format. -/
theorem f32_num_eq (x : Nat) : FpFmt.f32.num x =
    if x % 2 ^ 31 > 0x7F800000 then .nan
    else if x % 2 ^ 31 = 0x7F800000 then .inf (decide (x / 2 ^ 31 % 2 = 1))
    else if x % 2 ^ 31 / 2 ^ 23 = 0 then .fin (decide (x / 2 ^ 31 % 2 = 1)) (x % 2 ^ 31 % 2 ^ 23) (-149)
    else .fin (decide (x / 2 ^ 31 % 2 = 1)) (x % 2 ^ 31 % 2 ^ 23 + 2 ^ 23) (-149 + ((x % 2 ^ 31 / 2 ^ 23 - 1 : Nat) : Int)) := rfl

theorem f32_num_normal {x : Nat} (h : NormalScale x) :
    FpFmt.f32.num x = .fin false (x % 2 ^ 23 + 2 ^ 23) ((x / 2 ^ 23 : Nat) - 150) := by
  obtain ⟨lo, hi⟩ := h
  have magnitude : x % 2 ^ 31 = x := Nat.mod_eq_of_lt (by omega)
  have exponent : (-149 : Int) + ((x / 2 ^ 23 - 1 : Nat) : Int) = (x / 2 ^ 23 : Nat) - 150 := by omega
  rw [f32_num_eq, magnitude, if_neg (by omega), if_neg (by omega), if_neg (by omega), decide_eq_false (by omega), exponent]

theorem f32_val_normal {x : Nat} (h : NormalScale x) :
    (FpFmt.f32.num x).val = ((x % 2 ^ 23 + 2 ^ 23 : Nat) : ℚ) * 2 ^ ((x / 2 ^ 23 : Nat) - 150 : Int) := by
  rw [f32_num_normal h]; simp [Num.val]

theorem f32_isFin_normal {x : Nat} (h : NormalScale x) : (FpFmt.f32.num x).isFin = true := by rw [f32_num_normal h]; rfl

/-- One up in the exponent field doubles the value. -/
theorem f32_val_double {x : Nat} (h : NormalScale x) (h' : NormalScale (x + 2 ^ 23)) :
    (FpFmt.f32.num (x + 2 ^ 23)).val = (FpFmt.f32.num x).val * 2 := by
  rw [f32_val_normal h, f32_val_normal h', Nat.add_mod_right, Nat.add_div_right x (by decide), mul_assoc,
    ← zpow_add_one₀ two_ne_zero]
  congr 2
  omega

theorem f32_val_ge {x n : Nat} (h : NormalScale x) (hn : n ≤ x / 2 ^ 23) : (2 : ℚ) ^ (n - 127 : Int) ≤ (FpFmt.f32.num x).val := by
  have significand : (2 : ℚ) ^ (23 : Int) ≤ ((x % 2 ^ 23 + 2 ^ 23 : Nat) : ℚ) := by
    norm_cast; omega
  calc (2 : ℚ) ^ (n - 127 : Int) ≤ 2 ^ (23 + ((x / 2 ^ 23 : Nat) - 150) : Int) := zpow_le_zpow_right₀ one_le_two (by omega)
    _ = 2 ^ (23 : Int) * 2 ^ ((x / 2 ^ 23 : Nat) - 150 : Int) := zpow_add₀ two_ne_zero _ _
    _ ≤ _ := mul_le_mul_of_nonneg_right significand (zpow_nonneg zero_le_two _)
    _ = _ := (f32_val_normal h).symm

theorem f32_val_lt {x n : Nat} (h : NormalScale x) (hn : x / 2 ^ 23 < n) : (FpFmt.f32.num x).val < (2 : ℚ) ^ (n - 127 : Int) := by
  have significand : ((x % 2 ^ 23 + 2 ^ 23 : Nat) : ℚ) < (2 : ℚ) ^ (24 : Int) := by
    norm_cast; omega
  calc _ = _ := f32_val_normal h
    _ < 2 ^ (24 : Int) * 2 ^ ((x / 2 ^ 23 : Nat) - 150 : Int) := mul_lt_mul_of_pos_right significand (zpow_pos two_pos _)
    _ = 2 ^ (24 + ((x / 2 ^ 23 : Nat) - 150) : Int) := (zpow_add₀ two_ne_zero _ _).symm
    _ ≤ _ := zpow_le_zpow_right₀ one_le_two (by omega)

/-- Any other finite pattern stands for less than 2^-126: it is subnormal, zero or negative. -/
theorem f32_val_lt_of_not_normal {x : Nat} (hx : x < 2 ^ 32) (h : ¬ NormalScale x) (fin : (FpFmt.f32.num x).isFin = true) :
    (FpFmt.f32.num x).val < (2 : ℚ) ^ (-126 : Int) := by
  have least : (0 : ℚ) < 2 ^ (-126 : Int) := zpow_pos two_pos _
  have negative (m : Nat) (e : Int) : (Num.fin true m e).val < 2 ^ (-126 : Int) := by
    refine lt_of_le_of_lt ?_ least
    have : (0 : ℚ) ≤ m * 2 ^ e := by positivity
    simpa [Num.val] using this
  rw [f32_num_eq] at fin ⊢
  split at fin
  · simp [Num.isFin] at fin
  split at fin
  · simp [Num.isFin] at fin
  rename_i notNan notInf
  rw [if_neg notNan, if_neg notInf]
  by_cases sign : x / 2 ^ 31 % 2 = 1
  · rw [decide_eq_true sign]
    split <;> exact negative _ _
  · have small : x < 2 ^ 23 := by unfold NormalScale at h; omega
    rw [if_pos (by omega), decide_eq_false sign]
    have fraction : ((x % 2 ^ 31 % 2 ^ 23 : Nat) : ℚ) < 2 ^ (23 : Int) := by norm_cast; omega
    calc _ = ((x % 2 ^ 31 % 2 ^ 23 : Nat) : ℚ) * 2 ^ (-149 : Int) := by simp [Num.val]
      _ < 2 ^ (23 : Int) * 2 ^ (-149 : Int) := mul_lt_mul_of_pos_right fraction (zpow_pos two_pos _)
      _ = _ := (zpow_add₀ two_ne_zero _ _).symm

/-! ## The scale as LSUPD takes it, halved and doubled -/

theorem f32_val_one : (FpFmt.f32.num 0x3F800000).val = 1 := by
  rw [f32_val_normal ⟨by decide, by decide⟩]; norm_num

/-- The value of the least scale. -/
theorem f32_val_least : (FpFmt.f32.num 0x00800000).val = 2 ^ (-126 : Int) := by
  rw [f32_val_normal ⟨by decide, by decide⟩]; norm_num

/-- The value of the greatest scale. -/
theorem f32_val_greatest : (FpFmt.f32.num 0x7F000000).val = 2 ^ (127 : Int) := by
  rw [f32_val_normal ⟨by decide, by decide⟩]; norm_num

theorem lscaleIn_of_normal {x : Word} (h : NormalScale x.toNat) : lscaleIn x = x := if_pos h

theorem lscaleIn_of_not_normal {x : Word} (h : ¬ NormalScale x.toNat) : lscaleIn x = 0x3F800000 := if_neg h

theorem lscaleIn_normal (x : Word) : NormalScale (lscaleIn x).toNat := by
  by_cases h : NormalScale x.toNat
  · rwa [lscaleIn_of_normal h]
  · rw [lscaleIn_of_not_normal h]; exact ⟨by decide, by decide⟩

/-- The scale of the statement is the value of the pattern that LSUPD takes. -/
theorem f32_val_lscaleIn (x : Word) : (FpFmt.f32.num (lscaleIn x).toNat).val = scaleOf x := by
  unfold scaleOf
  by_cases h : NormalScale x.toNat
  · have least : (2 : ℚ) ^ (-126 : Int) ≤ (FpFmt.f32.num x.toNat).val := f32_val_ge (n := 1) h (by have := h.1; omega)
    rw [lscaleIn_of_normal h]
    exact (if_pos ⟨f32_isFin_normal h, least⟩).symm
  · rw [lscaleIn_of_not_normal h]
    exact f32_val_one.trans (if_neg fun ⟨fin, least⟩ => (f32_val_lt_of_not_normal x.isLt h fin).not_ge least).symm

theorem lscaleHalf_normal {x : Word} (h : NormalScale x.toNat) : NormalScale (lscaleHalf x).toNat := by
  obtain ⟨lo, hi⟩ := h
  unfold lscaleHalf
  split
  · exact ⟨by decide, by decide⟩
  · constructor <;> bv_omega

theorem lscaleTwice_normal {x : Word} (h : NormalScale x.toNat) : NormalScale (lscaleTwice x).toNat := by
  obtain ⟨lo, hi⟩ := h
  unfold lscaleTwice
  split
  · exact ⟨by decide, by decide⟩
  · constructor <;> bv_omega

/-- Half of the value, at least 2^-126: the bound is met where the exponent field is 1. -/
theorem f32_val_lscaleHalf {x : Word} (h : NormalScale x.toNat) :
    (FpFmt.f32.num (lscaleHalf x).toNat).val = max (2 ^ (-126 : Int)) ((FpFmt.f32.num x.toNat).val / 2) := by
  have half := lscaleHalf_normal h
  by_cases bound : x.toNat < 0x01000000
  · have below : (FpFmt.f32.num x.toNat).val < 2 ^ (-126 + 1 : Int) := f32_val_lt (n := 2) h (by omega)
    rw [zpow_add_one₀ two_ne_zero, ← div_lt_iff₀ two_pos] at below
    rw [lscaleHalf, if_pos bound, max_eq_left below.le]
    exact f32_val_least
  · rw [lscaleHalf, if_neg bound] at half ⊢
    have up : (x - 0x00800000).toNat + 2 ^ 23 = x.toNat := by have := h.1; bv_omega
    have double := f32_val_double half (up ▸ h)
    have least : (2 : ℚ) ^ (-126 : Int) ≤ (FpFmt.f32.num (x - 0x00800000).toNat).val := f32_val_ge (n := 1) half (by have := half.1; omega)
    rw [← up, double, mul_div_cancel_right₀ _ two_ne_zero, max_eq_right least]

/-- Twice the value, at most 2^127: the bound is met where the exponent field is 253 or 254. -/
theorem f32_val_lscaleTwice {x : Word} (h : NormalScale x.toNat) :
    (FpFmt.f32.num (lscaleTwice x).toNat).val = min (2 ^ (127 : Int)) ((FpFmt.f32.num x.toNat).val * 2) := by
  have twice := lscaleTwice_normal h
  by_cases bound : 0x7E800000 ≤ x.toNat
  · have above : (2 : ℚ) ^ (126 : Int) ≤ (FpFmt.f32.num x.toNat).val := f32_val_ge (n := 253) h (by omega)
    have reached : (2 : ℚ) ^ (127 : Int) ≤ (FpFmt.f32.num x.toNat).val * 2 :=
      (zpow_add_one₀ two_ne_zero 126).le.trans (mul_le_mul_of_nonneg_right above zero_le_two)
    rw [lscaleTwice, if_pos bound, min_eq_left reached]
    exact f32_val_greatest
  · rw [lscaleTwice, if_neg bound] at twice ⊢
    have up : (x + 0x00800000).toNat = x.toNat + 2 ^ 23 := by have := h.2; bv_omega
    rw [up] at twice ⊢
    have below : (FpFmt.f32.num (x.toNat + 2 ^ 23)).val < 2 ^ (127 : Int) := f32_val_lt (n := 254) twice (by omega)
    rw [f32_val_double h twice] at below ⊢
    rw [min_eq_right below.le]

/-! ## The group's step -/

theorem Group.lsupd_event {g : Group} (bad : g.ovfl &&& 0xF ≠ 0) (n : BitVec 16) :
    g.lsupd n = { g with lscale := lscaleHalf (lscaleIn g.lscale), lscnt := 0, ovfl := g.ovfl &&& ~~~0xF } := if_pos bad

theorem Group.lsupd_full {g : Group} (good : ¬ g.ovfl &&& 0xF ≠ 0) {n : BitVec 16} (full : n.toNat ≤ g.lscnt.toNat + 1) :
    g.lsupd n = { g with lscale := lscaleTwice (lscaleIn g.lscale), lscnt := 0 } := (if_neg good).trans (if_pos full)

theorem Group.lsupd_counts {g : Group} (good : ¬ g.ovfl &&& 0xF ≠ 0) {n : BitVec 16} (more : g.lscnt.toNat + 1 < n.toNat) :
    g.lsupd n = { g with lscale := lscaleIn g.lscale, lscnt := g.lscnt + 1 } := (if_neg good).trans (if_neg more.not_ge)

/-- Of the group the step changes LSCALE, LSCNT and OVFL alone, and what stands in a wave has no part in it. -/
theorem Group.lsupd_setWave (g : Group) (wv : Nat) (w : Wave) (n : BitVec 16) :
    (g.setWave wv w).lsupd n =
      { g.setWave wv w with lscale := (g.lsupd n).lscale, lscnt := (g.lsupd n).lscnt, ovfl := (g.lsupd n).ovfl } := by
  rcases em (g.ovfl &&& 0xF ≠ 0) with bad | good
  · rw [Group.lsupd_event bad]; exact Group.lsupd_event (g := g.setWave wv w) bad n
  · rcases Nat.lt_or_ge (g.lscnt.toNat + 1) n.toNat with more | full
    · rw [Group.lsupd_counts good more]; exact Group.lsupd_counts (g := g.setWave wv w) good more
    · rw [Group.lsupd_full good full]; exact Group.lsupd_full (g := g.setWave wv w) good full

/-- The scale that LSUPD leaves is again a positive finite normal number. -/
theorem Group.lsupd_normal (g : Group) (n : BitVec 16) : NormalScale (g.lsupd n).lscale.toNat := by
  have taken := lscaleIn_normal g.lscale
  rcases em (g.ovfl &&& 0xF ≠ 0) with bad | good
  · rw [Group.lsupd_event bad]; exact lscaleHalf_normal taken
  · rcases Nat.lt_or_ge (g.lscnt.toNat + 1) n.toNat with more | full
    · rw [Group.lsupd_counts good more]; exact taken
    · rw [Group.lsupd_full good full]; exact lscaleTwice_normal taken

/-! ## The word -/

/-- A per-thread value written to covered threads: each reads it, no live thread reads anything else differently (R16, R138). -/
theorem Wave.writeLanes_spec {s : State} {h : Here} (hi : Issues s h) (g : Guard) (vd : Reg) (tag : Tag) (f : Lane → Word) :
    h.w.SameBut (h.w.writeLanes (h.cov g) vd.toNat tag f) ∧
      (∀ q, Mask.has (h.cov g) q = true → (h.w.writeLanes (h.cov g) vd.toNat tag f).read vd.toNat q = f q) ∧
      (∀ r q, Mask.has h.w.alive q = true → r ≠ vd.toNat ∨ Mask.has (h.cov g) q = false →
        (h.w.writeLanes (h.cov g) vd.toNat tag f).read r q = h.w.read r q) := by
  obtain ⟨-, same, other, uncovered, covered⟩ := h.w.alu_spec (h.cov g)
    ⟨[vd.toNat], [], false, fun _ => tag, fun t _ => ⟨[f t], false, false⟩⟩ hi.lays.borrows hi.lays.placed
    (List.nodup_singleton _) (by simpa using vd.isLt) (hi.covered g) (by simp) (fun r hr t ht => (hi.lays.uniform r hr t ht).2)
  refine ⟨same, fun q hq => covered 0 vd.toNat rfl q hq (by simp), fun r q hq hr => ?_⟩
  by_cases hd : r = vd.toNat
  · subst hd; exact uncovered _ (List.mem_singleton.mpr rfl) q hq (hr.resolve_left (absurd rfl))
  · exact other r (by simpa using hd) q hq

/-- The group in whose slot a word issues. -/
theorem State.find_here {s : State} {h : Here} (hh : s.here = some h) : Map.find s.groups h.ctx = some h.g := by
  unfold State.here at hh
  split at hh
  · cases hh
  unfold State.slotAt at hh
  split at hh
  · cases hh
  next x group =>
  split at hh
  · cases hh
  split at hh
  · cases hh; exact group
  · cases hh

/-- A word whose effect stays in the address space leaves the state it computes. -/
theorem State.act_next {s : State} {h : Here} (hh : s.here = some h) {f : Here → State} (hf : (f h).beyond = none) :
    s.act f = .next (f h) := by
  unfold State.act State.outcome; rw [hh]; simp [hf]

/-- The wave of an LSUPD after it: the covered threads read whether the step counts (R230). -/
def lsupdWave (h : Here) (g : Guard) (vd : Reg) : Wave :=
  h.w.writeLanes (h.cov g) vd.toNat .none (fun _ => if h.g.ovfl &&& 0xF ≠ 0 then 0 else 1)

theorem exec_lsupd_next {s : State} {h : Here} (hi : Issues s h) (g : Guard) (vd : Reg) (n : BitVec 16) :
    exec (.lsupd g vd n) s =
      .next (s.modGroup h.ctx (fun x => (x.setWave h.wv ((lsupdWave h g vd).advance h.k)).lsupd n)) := by
  refine (State.act_next hi.here hi.within).trans ?_
  simp only [lsupdWave, bne_iff_ne]

/-- Settles O42: the word is the group's step beside one register write, and in each of its three cases the pattern left stands for the exact
value of R230. -/
theorem lossScaleStep : Obligations.LossScaleStep := by
  intro s h g vd n hi
  dsimp only
  obtain ⟨same, covered, kept⟩ := Wave.writeLanes_spec hi g vd .none (fun _ => if h.g.ovfl &&& 0xF ≠ 0 then 0 else 1)
  have taken := lscaleIn_normal h.g.lscale
  refine ⟨_, lsupdWave h g vd, (h.g.lsupd n).lscale, (h.g.lsupd n).ovfl, (h.g.lsupd n).lscnt, exec_lsupd_next hi g vd n, rfl,
    fun k hk => ?_, ?_, same, covered, kept, f32_isFin_normal (h.g.lsupd_normal n), fun bad => ?_,
    fun good full => ?_, fun good more => ?_⟩
  · rw [State.modGroup_groups, Map.find_modify_other _ _ _ _ hk]
  · rw [State.modGroup_groups, Map.find_modify_same, State.find_here hi.here, Option.map_some, Group.lsupd_setWave]
  · rw [Group.lsupd_event bad]
    exact ⟨f32_val_lscaleIn _ ▸ f32_val_lscaleHalf taken, rfl, rfl⟩
  · rw [Group.lsupd_full good full]
    exact ⟨f32_val_lscaleIn _ ▸ f32_val_lscaleTwice taken, rfl, rfl⟩
  · rw [Group.lsupd_counts good more]
    exact ⟨f32_val_lscaleIn _, by have := n.isLt; bv_omega, rfl⟩

end Sys2Proof.Machine
end
